-- ==== Sys2Proof/Word.lean ====
section
/-! DEFINITION. The word types of the block and its byte strings (00_scope.md R13): `u8`, `u16`/`i16`, `u32`/`i32`.
A signed and an unsigned field of one width share a bit vector; the conversion to the integers is made where the
field is used (R14). -/

namespace Sys2Proof

/-- `u8` of R13. -/
abbrev Byte := BitVec 8

/-- `u16` and `i16` of R13. -/
abbrev Half := BitVec 16

/-- `u32` and `i32` of R13. -/
abbrev Quad := BitVec 32

/-- `bytes` of R13: a finite sequence of bytes, element 0 first. -/
abbrev Bytes := List Byte

end Sys2Proof
end

