-- ==== Sys2Proof/Syntax.lean ====
section
/-! DEFINITION. The instructions: one constructor per row of spec/opcode_table.json. Twenty-four are the requests a
host presents by descriptor (30_encoding.md Part B, R110); twelve are the wire command frames the block sends to the
panel (Part A, R91). Signed fields are two's complement bit vectors (R111). -/

namespace Sys2Proof

/-- The fields of a CF descriptor (R108). The six flag bits are `flags` bits 0 to 5. -/
structure ConfigFields where
  rstp : Bool
  dcp : Bool
  csp : Bool
  blp : Bool
  orgp : Bool
  rotc : Bool
  width : Half
  height : Half
  rot : Half
  xorg : Half
  yorg : Half
  deriving DecidableEq, Repr

inductive Instr where
  /-- R230: construct the Device. -/
  | config (f : ConfigFields)
  /-- R130. -/
  | pack565 (r g b : Byte)
  /-- R132: `width` is an `i16`. -/
  | expbmp (width fg bg : Half) (olen : Quad) (src : Bytes)
  /-- R140: `none` is the absent command byte (`CMDP = 0`). -/
  | send (cmd : Option Byte) (data : Bytes)
  /-- R170: four `i16`. -/
  | setwin (x0 y0 x1 y1 : Half)
  /-- R183: `count` is an `i32`. -/
  | sfill (color : Half) (count : Quad)
  /-- R188: `x y w h` are `i16`. -/
  | blit (x y w h : Half) (buf : Bytes)
  /-- R200. -/
  | pixel (x y color : Half)
  /-- R202: `len` is an `i16`. -/
  | hline (x y len color : Half)
  /-- R204. -/
  | vline (x y len color : Half)
  /-- R210. -/
  | line (x0 y0 x1 y1 color : Half)
  /-- R220. -/
  | rect (x y w h color : Half)
  /-- R222. -/
  | frect (x y w h color : Half)
  /-- R224. -/
  | fill (color : Half)
  /-- R236. -/
  | hreset
  /-- R238. -/
  | sreset
  /-- R240. -/
  | init
  /-- R242. -/
  | sleep (en : Bool)
  /-- R243. -/
  | invert (en : Bool)
  /-- R244. -/
  | blon
  /-- R245. -/
  | bloff
  /-- R247: `n` is an `i16`. -/
  | rotate (n : Half)
  /-- R249. -/
  | getrot
  /-- R250. -/
  | getdim
  /-- R150: wire frame 0x01. -/
  | swreset
  /-- R151: wire frame 0x10. -/
  | slpin
  /-- R152: wire frame 0x11. -/
  | slpout
  /-- R153: wire frame 0x13. -/
  | noron
  /-- R154: wire frame 0x20. -/
  | invoff
  /-- R155: wire frame 0x21. -/
  | invon
  /-- R156: wire frame 0x29. -/
  | dispon
  /-- R157: wire frame 0x2A with the two column bounds (R92). -/
  | caset (xs xe : Half)
  /-- R158: wire frame 0x2B with the two row bounds (R93). -/
  | raset (ys ye : Half)
  /-- R159: wire frame 0x2C. -/
  | ramwr
  /-- R160: wire frame 0x36 with one data byte. -/
  | madctl (v : Byte)
  /-- R161: wire frame 0x3A with one data byte. -/
  | colmod (v : Byte)
  deriving DecidableEq, Repr

/-- Whether the instruction is a request of R110 (else it is a wire command frame of R91). -/
def Instr.isRequest : Instr → Bool
  | .config _ => true
  | .pack565 _ _ _ => true
  | .expbmp _ _ _ _ _ => true
  | .send _ _ => true
  | .setwin _ _ _ _ => true
  | .sfill _ _ => true
  | .blit _ _ _ _ _ => true
  | .pixel _ _ _ => true
  | .hline _ _ _ _ => true
  | .vline _ _ _ _ => true
  | .line _ _ _ _ _ => true
  | .rect _ _ _ _ _ => true
  | .frect _ _ _ _ _ => true
  | .fill _ => true
  | .hreset => true
  | .sreset => true
  | .init => true
  | .sleep _ => true
  | .invert _ => true
  | .blon => true
  | .bloff => true
  | .rotate _ => true
  | .getrot => true
  | .getdim => true
  | .swreset => false
  | .slpin => false
  | .slpout => false
  | .noron => false
  | .invoff => false
  | .invon => false
  | .dispon => false
  | .caset _ _ => false
  | .raset _ _ => false
  | .ramwr => false
  | .madctl _ => false
  | .colmod _ => false

end Sys2Proof
end

