-- ==== Sys2Proof/WellFormed.lean ====
section
/-! DEFINITION. Which instructions have an encoding (30_encoding.md R113, R106 to R108): the must-be-zero fields of
CONFIG, and buffers whose length fits the 32-bit length field. Every other field takes every value of its type. -/

namespace Sys2Proof

/-- A buffer a `u32` length field can announce (`LEN_W = 32`, R11; R141). -/
abbrev fitsLength (b : Bytes) : Prop := b.length < 4294967296

/-- R113 for format CF: `rot` is 0 when `ROTC = 0`; `xorg` and `yorg` are 0 when `ORGP = 0`. -/
abbrev ConfigFields.WellFormed (f : ConfigFields) : Prop :=
  (f.rotc = false → f.rot = 0) ∧ (f.orgp = false → f.xorg = 0 ∧ f.yorg = 0)

/-- Is the instruction one that its encoding can carry? -/
def Instr.wf : Instr → Bool
  | .config f => decide f.WellFormed
  | .pack565 _ _ _ => true
  | .expbmp _ _ _ _ src => decide (fitsLength src)
  | .send _ data => decide (fitsLength data)
  | .setwin _ _ _ _ => true
  | .sfill _ _ => true
  | .blit _ _ _ _ buf => decide (fitsLength buf)
  | .pixel _ _ _ => true
  | .hline _ _ _ _ => true
  | .vline _ _ _ _ => true
  | .line _ _ _ _ _ => true
  | .rect _ _ _ _ _ => true
  | .frect _ _ _ _ _ => true
  | .fill _ => true
  | .hreset => true
  | .sreset => true
  | .init => true
  | .sleep _ => true
  | .invert _ => true
  | .blon => true
  | .bloff => true
  | .rotate _ => true
  | .getrot => true
  | .getdim => true
  | .swreset => true
  | .slpin => true
  | .slpout => true
  | .noron => true
  | .invoff => true
  | .invon => true
  | .dispon => true
  | .caset _ _ => true
  | .raset _ _ => true
  | .ramwr => true
  | .madctl _ => true
  | .colmod _ => true

/-- The instruction is well formed. -/
abbrev Instr.WellFormed (i : Instr) : Prop := i.wf = true

end Sys2Proof
end

