-- ==== Sys2Proof/Decode.lean ====
section
/-! DEFINITION. The two encodings of 30_encoding.md: the request descriptors of Part B (`decode`, R100 to R115) and the
wire command frames of Part A (`decodeFrame`, R91 to R97), and after them the encoder. Both decoders are total on byte
strings and reject by name. The byte order is big-endian everywhere (R65, R69). -/

namespace Sys2Proof

/-! Byte order (R111): assembling and splitting fields. -/

/-- A two-byte field, high byte first. -/
def half (hi lo : Byte) : Half := hi ++ lo

/-- A four-byte field, high byte first. -/
def quad (b3 b2 b1 b0 : Byte) : Quad := b3 ++ b2 ++ b1 ++ b0

/-- `be16` of R14 on a value already reduced to 16 bits: high byte first. -/
def be16 (v : Half) : Bytes := [v.extractLsb' 8 8, v.extractLsb' 0 8]

/-- The four bytes of a `u32` or `i32` field, high byte first (R69). -/
def be32 (v : Quad) : Bytes := [v.extractLsb' 24 8, v.extractLsb' 16 8, v.extractLsb' 8 8, v.extractLsb' 0 8]

/-! The twelve command codes (R10, R91). -/

/-- `CMD_SWRESET`. -/
def cmdSwreset : Byte := 0x01
/-- `CMD_SLPIN`. -/
def cmdSlpin : Byte := 0x10
/-- `CMD_SLPOUT`. -/
def cmdSlpout : Byte := 0x11
/-- `CMD_NORON`. -/
def cmdNoron : Byte := 0x13
/-- `CMD_INVOFF`. -/
def cmdInvoff : Byte := 0x20
/-- `CMD_INVON`. -/
def cmdInvon : Byte := 0x21
/-- `CMD_DISPON`. -/
def cmdDispon : Byte := 0x29
/-- `CMD_CASET`. -/
def cmdCaset : Byte := 0x2A
/-- `CMD_RASET`. -/
def cmdRaset : Byte := 0x2B
/-- `CMD_RAMWR`. -/
def cmdRamwr : Byte := 0x2C
/-- `CMD_MADCTL`. -/
def cmdMadctl : Byte := 0x36
/-- `CMD_COLMOD`. -/
def cmdColmod : Byte := 0x3A

/-! The request opcodes and the length of their descriptors (R110, R101 to R108). -/

/-- The descriptor formats of R101 to R108. -/
inductive Format where
  | n
  | e
  | c
  | rn
  | p3
  | xyc
  | xylc
  | w
  | q4c
  | sf
  | sd
  | bl
  | eb
  | cf
  deriving DecidableEq, Repr

/-- R110: the format of a request opcode; `none` for a reserved opcode (R112). -/
def formatOf (op : Byte) : Option Format :=
  if op = 0x01 then some .cf
  else if op = 0x10 then some .p3
  else if op = 0x11 then some .eb
  else if op = 0x20 then some .sd
  else if op = 0x30 then some .w
  else if op = 0x40 then some .sf
  else if op = 0x41 then some .bl
  else if op = 0x50 then some .xyc
  else if op = 0x51 then some .xylc
  else if op = 0x52 then some .xylc
  else if op = 0x53 then some .q4c
  else if op = 0x54 then some .q4c
  else if op = 0x55 then some .q4c
  else if op = 0x56 then some .c
  else if op = 0x60 then some .n
  else if op = 0x61 then some .n
  else if op = 0x62 then some .n
  else if op = 0x63 then some .e
  else if op = 0x64 then some .e
  else if op = 0x65 then some .n
  else if op = 0x66 then some .n
  else if op = 0x67 then some .rn
  else if op = 0x68 then some .n
  else if op = 0x69 then some .n
  else none

/-- Length in bytes of a descriptor of the format, with an empty buffer (R101 to R108). -/
def Format.fixedLength : Format → Nat
  | .n => 1
  | .e => 2
  | .c => 3
  | .rn => 3
  | .p3 => 4
  | .xyc => 7
  | .xylc => 9
  | .w => 9
  | .q4c => 11
  | .sf => 7
  | .sd => 7
  | .bl => 13
  | .eb => 15
  | .cf => 12

/-! The request decoder. -/

/-- Why a byte string is no instruction of the encoding it was read in. -/
inductive Reject where
  /-- The byte string is empty (R114, vector E2). -/
  | noOpcode
  /-- The opcode is not in the table of R110 (R112). -/
  | reservedOpcode
  /-- The byte string is shorter or longer than its opcode and its length field say (R114). -/
  | badLength
  /-- A must-be-zero field is not zero, or `en` is neither 0 nor 1 (R113). -/
  | reservedField
  /-- The bytes are no wire command frame of R91. -/
  | notAFrame
  deriving DecidableEq, Repr

/-- What a decoder answers. -/
inductive Decoded where
  | instr (i : Instr)
  | rejected (r : Reject)
  deriving DecidableEq, Repr

/-- Format N (R101). -/
def decodeN (i : Instr) : Bytes → Decoded
  | [] => .instr i
  | _ => .rejected .badLength

/-- Format E (R102): one boolean byte, 0 or 1 (R113). -/
def decodeE (k : Bool → Instr) : Bytes → Decoded
  | [en] => if en = 0 then .instr (k false) else if en = 1 then .instr (k true) else .rejected .reservedField
  | _ => .rejected .badLength

/-- Formats C and RN (R102): one two-byte field. -/
def decodeHalf (k : Half → Instr) : Bytes → Decoded
  | [a1, a0] => .instr (k (half a1 a0))
  | _ => .rejected .badLength

/-- Format P3 (R102). -/
def decodeP3 (k : Byte → Byte → Byte → Instr) : Bytes → Decoded
  | [r, g, b] => .instr (k r g b)
  | _ => .rejected .badLength

/-- Format XYC (R103). -/
def decodeXyc (k : Half → Half → Half → Instr) : Bytes → Decoded
  | [x1, x0, y1, y0, c1, c0] => .instr (k (half x1 x0) (half y1 y0) (half c1 c0))
  | _ => .rejected .badLength

/-- Formats XYLC (R103) and W (R104): four two-byte fields. -/
def decodeHalves4 (k : Half → Half → Half → Half → Instr) : Bytes → Decoded
  | [a1, a0, b1, b0, c1, c0, d1, d0] => .instr (k (half a1 a0) (half b1 b0) (half c1 c0) (half d1 d0))
  | _ => .rejected .badLength

/-- Format Q4C (R104): five two-byte fields. -/
def decodeHalves5 (k : Half → Half → Half → Half → Half → Instr) : Bytes → Decoded
  | [a1, a0, b1, b0, c1, c0, d1, d0, e1, e0] =>
    .instr (k (half a1 a0) (half b1 b0) (half c1 c0) (half d1 d0) (half e1 e0))
  | _ => .rejected .badLength

/-- Format SF (R105). -/
def decodeSf : Bytes → Decoded
  | [c1, c0, n3, n2, n1, n0] => .instr (.sfill (half c1 c0) (quad n3 n2 n1 n0))
  | _ => .rejected .badLength

/-- Format SD (R106): flags, command byte, 32-bit length, data. -/
def decodeSd : Bytes → Decoded
  | flags :: cmd :: l3 :: l2 :: l1 :: l0 :: data =>
    if data.length ≠ (quad l3 l2 l1 l0).toNat then .rejected .badLength
    else if flags = 1 then .instr (.send (some cmd) data)
    else if flags = 0 ∧ cmd = 0 then .instr (.send none data)
    else .rejected .reservedField
  | _ => .rejected .badLength

/-- Format BL (R107). -/
def decodeBl : Bytes → Decoded
  | x1 :: x0 :: y1 :: y0 :: w1 :: w0 :: h1 :: h0 :: l3 :: l2 :: l1 :: l0 :: buf =>
    if buf.length ≠ (quad l3 l2 l1 l0).toNat then .rejected .badLength
    else .instr (.blit (half x1 x0) (half y1 y0) (half w1 w0) (half h1 h0) buf)
  | _ => .rejected .badLength

/-- Format EB (R107). -/
def decodeEb : Bytes → Decoded
  | w1 :: w0 :: f1 :: f0 :: b1 :: b0 :: o3 :: o2 :: o1 :: o0 :: l3 :: l2 :: l1 :: l0 :: src =>
    if src.length ≠ (quad l3 l2 l1 l0).toNat then .rejected .badLength
    else .instr (.expbmp (half w1 w0) (half f1 f0) (half b1 b0) (quad o3 o2 o1 o0) src)
  | _ => .rejected .badLength

/-- The fields of a CF descriptor from its bytes (R108): flag bit 0 is `RSTP`, up to bit 5 `ROTC`. -/
def configFields (flags w1 w0 h1 h0 r1 r0 x1 x0 y1 y0 : Byte) : ConfigFields where
  rstp := flags.getLsbD 0
  dcp := flags.getLsbD 1
  csp := flags.getLsbD 2
  blp := flags.getLsbD 3
  orgp := flags.getLsbD 4
  rotc := flags.getLsbD 5
  width := half w1 w0
  height := half h1 h0
  rot := half r1 r0
  xorg := half x1 x0
  yorg := half y1 y0

/-- Format CF (R108), with the must-be-zero fields of R113. -/
def decodeCf : Bytes → Decoded
  | [flags, w1, w0, h1, h0, r1, r0, x1, x0, y1, y0] =>
    if flags.getLsbD 6 = false ∧ flags.getLsbD 7 = false ∧
        (configFields flags w1 w0 h1 h0 r1 r0 x1 x0 y1 y0).WellFormed then
      .instr (.config (configFields flags w1 w0 h1 h0 r1 r0 x1 x0 y1 y0))
    else .rejected .reservedField
  | _ => .rejected .badLength

/-- The decode function of R114 on what follows the opcode byte. -/
def decodeBody (op : Byte) (rest : Bytes) : Decoded :=
  if op = 0x01 then decodeCf rest
  else if op = 0x10 then decodeP3 .pack565 rest
  else if op = 0x11 then decodeEb rest
  else if op = 0x20 then decodeSd rest
  else if op = 0x30 then decodeHalves4 .setwin rest
  else if op = 0x40 then decodeSf rest
  else if op = 0x41 then decodeBl rest
  else if op = 0x50 then decodeXyc .pixel rest
  else if op = 0x51 then decodeHalves4 .hline rest
  else if op = 0x52 then decodeHalves4 .vline rest
  else if op = 0x53 then decodeHalves5 .line rest
  else if op = 0x54 then decodeHalves5 .rect rest
  else if op = 0x55 then decodeHalves5 .frect rest
  else if op = 0x56 then decodeHalf .fill rest
  else if op = 0x60 then decodeN .hreset rest
  else if op = 0x61 then decodeN .sreset rest
  else if op = 0x62 then decodeN .init rest
  else if op = 0x63 then decodeE .sleep rest
  else if op = 0x64 then decodeE .invert rest
  else if op = 0x65 then decodeN .blon rest
  else if op = 0x66 then decodeN .bloff rest
  else if op = 0x67 then decodeHalf .rotate rest
  else if op = 0x68 then decodeN .getrot rest
  else if op = 0x69 then decodeN .getdim rest
  else .rejected .reservedOpcode

/-- R114: a request descriptor is read from its opcode byte on; every byte string is one legal request or illegal. -/
def decode : Bytes → Decoded
  | [] => .rejected .noOpcode
  | op :: rest => decodeBody op rest

/-! The wire command frames (R91). A frame is written as its command byte followed by its data bytes. -/

/-- Number of data bytes the block sends with a command code (R91); `none` for a code it never sends of itself (R75). -/
def payloadLength (code : Byte) : Option Nat :=
  if code = cmdSwreset then some 0
  else if code = cmdSlpin then some 0
  else if code = cmdSlpout then some 0
  else if code = cmdNoron then some 0
  else if code = cmdInvoff then some 0
  else if code = cmdInvon then some 0
  else if code = cmdDispon then some 0
  else if code = cmdCaset then some 4
  else if code = cmdRaset then some 4
  else if code = cmdRamwr then some 0
  else if code = cmdMadctl then some 1
  else if code = cmdColmod then some 1
  else none

/-- A frame with two 16-bit bounds (R92, R93). -/
def decodeBounds (k : Half → Half → Instr) : Bytes → Decoded
  | [s1, s0, e1, e0] => .instr (k (half s1 s0) (half e1 e0))
  | _ => .rejected .notAFrame

/-- A frame with one data byte (R96, R97). -/
def decodeOne (k : Byte → Instr) : Bytes → Decoded
  | [v] => .instr (k v)
  | _ => .rejected .notAFrame

/-- A frame with no data byte. -/
def decodeBare (i : Instr) : Bytes → Decoded
  | [] => .instr i
  | _ => .rejected .notAFrame

/-- The wire command frame a command byte and its data bytes are (R91). -/
def decodeFrame : Bytes → Decoded
  | [] => .rejected .notAFrame
  | code :: data =>
    if code = cmdSwreset then decodeBare .swreset data
    else if code = cmdSlpin then decodeBare .slpin data
    else if code = cmdSlpout then decodeBare .slpout data
    else if code = cmdNoron then decodeBare .noron data
    else if code = cmdInvoff then decodeBare .invoff data
    else if code = cmdInvon then decodeBare .invon data
    else if code = cmdDispon then decodeBare .dispon data
    else if code = cmdCaset then decodeBounds .caset data
    else if code = cmdRaset then decodeBounds .raset data
    else if code = cmdRamwr then decodeBare .ramwr data
    else if code = cmdMadctl then decodeOne .madctl data
    else if code = cmdColmod then decodeOne .colmod data
    else .rejected .notAFrame

/-! The encoder. -/

/-- The flags byte of a CF descriptor (R108). -/
def configFlags (f : ConfigFields) : Byte :=
  (if f.rstp then 0x01 else 0) ||| (if f.dcp then 0x02 else 0) ||| (if f.csp then 0x04 else 0) |||
    (if f.blp then 0x08 else 0) ||| (if f.orgp then 0x10 else 0) ||| (if f.rotc then 0x20 else 0)

/-- A boolean byte of format E (R102). -/
def enByte (en : Bool) : Byte := if en then 1 else 0

/-- The 32-bit length field of a buffer (R100). -/
def lengthField (b : Bytes) : Bytes := be32 (BitVec.ofNat 32 b.length)

/-- The descriptor of a request (R100 to R110), or the command byte and data bytes of a wire frame (R91 to R97). -/
def encode : Instr → Bytes
  | .config f => [0x01, configFlags f] ++ be16 f.width ++ be16 f.height ++ be16 f.rot ++ be16 f.xorg ++ be16 f.yorg
  | .pack565 r g b => [0x10, r, g, b]
  | .expbmp width fg bg olen src => [0x11] ++ be16 width ++ be16 fg ++ be16 bg ++ be32 olen ++ lengthField src ++ src
  | .send none data => [0x20, 0x00, 0x00] ++ lengthField data ++ data
  | .send (some cmd) data => [0x20, 0x01, cmd] ++ lengthField data ++ data
  | .setwin x0 y0 x1 y1 => [0x30] ++ be16 x0 ++ be16 y0 ++ be16 x1 ++ be16 y1
  | .sfill color count => [0x40] ++ be16 color ++ be32 count
  | .blit x y w h buf => [0x41] ++ be16 x ++ be16 y ++ be16 w ++ be16 h ++ lengthField buf ++ buf
  | .pixel x y color => [0x50] ++ be16 x ++ be16 y ++ be16 color
  | .hline x y len color => [0x51] ++ be16 x ++ be16 y ++ be16 len ++ be16 color
  | .vline x y len color => [0x52] ++ be16 x ++ be16 y ++ be16 len ++ be16 color
  | .line x0 y0 x1 y1 color => [0x53] ++ be16 x0 ++ be16 y0 ++ be16 x1 ++ be16 y1 ++ be16 color
  | .rect x y w h color => [0x54] ++ be16 x ++ be16 y ++ be16 w ++ be16 h ++ be16 color
  | .frect x y w h color => [0x55] ++ be16 x ++ be16 y ++ be16 w ++ be16 h ++ be16 color
  | .fill color => [0x56] ++ be16 color
  | .hreset => [0x60]
  | .sreset => [0x61]
  | .init => [0x62]
  | .sleep en => [0x63, enByte en]
  | .invert en => [0x64, enByte en]
  | .blon => [0x65]
  | .bloff => [0x66]
  | .rotate n => [0x67] ++ be16 n
  | .getrot => [0x68]
  | .getdim => [0x69]
  | .swreset => [cmdSwreset]
  | .slpin => [cmdSlpin]
  | .slpout => [cmdSlpout]
  | .noron => [cmdNoron]
  | .invoff => [cmdInvoff]
  | .invon => [cmdInvon]
  | .dispon => [cmdDispon]
  | .caset xs xe => [cmdCaset] ++ be16 xs ++ be16 xe
  | .raset ys ye => [cmdRaset] ++ be16 ys ++ be16 ye
  | .ramwr => [cmdRamwr]
  | .madctl v => [cmdMadctl, v]
  | .colmod v => [cmdColmod, v]

/-! The opcode table's words. The table numbers bits from the first byte up, so byte `k` is bits `8k+7 .. 8k`. -/

/-- The first `(nbits + 7) / 8` bytes of a table word. -/
def wordBytes (nbits w : Nat) : Bytes :=
  (List.range ((nbits + 7) / 8)).map fun k => BitVec.ofNat 8 (w / 256 ^ k)

/-- The bytes followed by zero bytes up to `n` bytes in all. -/
def padTo (n : Nat) (b : Bytes) : Bytes := b ++ List.replicate (n - b.length) 0

/-- A table word as a request descriptor, zero fields up to its format's length (a buffer of length 0 unless the word
itself says otherwise); `none` when its first byte is no request opcode. -/
def tableDescriptor (nbits w : Nat) : Option Bytes :=
  match (formatOf (BitVec.ofNat 8 w)) with
  | some f => some (padTo f.fixedLength (wordBytes nbits w))
  | none => none

/-- A table word as a wire command frame, zero data bytes up to its payload's length; `none` when its first byte is no
command code of R91. -/
def tableFrame (nbits w : Nat) : Option Bytes :=
  match payloadLength (BitVec.ofNat 8 w) with
  | some n => some (padTo (n + 1) (wordBytes nbits w))
  | none => none

/-- What the decoders read from a table word. A first byte that is a request opcode is a descriptor; one that is only a
command code is a wire frame (notes/assumptions/5.md: four codes are both, and are then requests). -/
def decodeTableWord (nbits w : Nat) : Option Instr :=
  match tableDescriptor nbits w with
  | some b =>
    match decode b with
    | .instr i => some i
    | .rejected _ => none
  | none =>
    match tableFrame nbits w with
    | some b =>
      match decodeFrame b with
      | .instr i => some i
      | .rejected _ => none
    | none => none

/-- The descriptor by which a table word reaches the request port: itself, or for a wire frame the SEND request that
sends that frame (R145: every frame is one execution of SEND). -/
def tableRequest (nbits w : Nat) : Bytes :=
  match tableDescriptor nbits w with
  | some b => b
  | none =>
    match tableFrame nbits w with
    | some (code :: data) => encode (.send (some code) data)
    | some [] => wordBytes nbits w
    | none => wordBytes nbits w

end Sys2Proof
end

