-- ==== Sys2Proof/Config.lean ====
section
/-! DEFINITION. What the spec leaves open: the parameters of a run (00_scope.md R12) and the bus outcome oracle (R266).
The values the machine has at reset are constants WITHOUT a body, so no proof can see them; a claim about the block
quantifies over them because State carries them as plain data (notes/assumptions/1.md, 2.md). -/

namespace Sys2Proof

/-- Level of one output line, 0 or 1 (10_state.md R40). -/
inductive Level where
  | low
  | high
  deriving DecidableEq, Repr, Inhabited

/-- `STREAM_FRAMING` (R12, R181): how the transfers of one pixel stream are framed. -/
inductive StreamFraming where
  | perStream
  | perChunk
  deriving DecidableEq, Repr, Inhabited

/-- `NEG_COORD_POLICY` (R12, R171): whether SETWIN accepts a negative `x0` or `y0`. -/
inductive NegCoordPolicy where
  | literal
  | reject
  deriving DecidableEq, Repr, Inhabited

/-- What the bus collaborator reports for one transfer (R266). -/
inductive BusResult where
  | ok
  | fail
  deriving DecidableEq, Repr, Inhabited

/-- One row of `PRESETS` (R12, R232): the panel size and the origin it is known to have. -/
structure Preset where
  width : Half
  height : Half
  xstart : Half
  ystart : Half
  deriving DecidableEq, Repr, Inhabited

/-- The open parameters of R12. `presets` is a finite partial map given by its rows, the first row of a size winning. -/
structure Params where
  dcCmdLevel : Level
  colmodData : Byte
  madctlInit : Byte
  madctlRot0 : Byte
  madctlRot1 : Byte
  madctlRot2 : Byte
  madctlRot3 : Byte
  madctlRgb : Byte
  presets : List Preset
  streamFraming : StreamFraming
  negCoordPolicy : NegCoordPolicy
  deriving DecidableEq, Repr, Inhabited

/-- The binding of the open parameters in the machine right after reset: unknown (R12: "A model takes each as an argument"). -/
opaque Config.params : Params

/-- The bus outcome oracle of R266: from the index of a transfer in the run to what the collaborator reports. -/
opaque Config.busOutcome : Nat → BusResult

/-- The binding P0 of R12, which the spec uses for its numeric test vectors only. No definition of the machine uses it. -/
def Params.p0 : Params where
  dcCmdLevel := .low
  colmodData := 0x55
  madctlInit := 0x10
  madctlRot0 := 0x00
  madctlRot1 := 0x60
  madctlRot2 := 0xC0
  madctlRot3 := 0xA0
  madctlRgb := 0x00
  presets := [⟨240, 240, 0, 0⟩, ⟨135, 240, 52, 40⟩]
  streamFraming := .perStream
  negCoordPolicy := .literal

end Sys2Proof
end

