-- ==== Sys2Proof/Machine/State.lean ====
section
/-! DEFINITION. The state of the block as plain data (10_state.md R20 to R56) and its value after block reset (R55, R290).
"No value" is the spec's own state of a register (R44, R55), so such a register is an Option. The Device's registers have
values together or not at all (R55), so they are one structure and CONSTRUCTED is whether it is there. -/

namespace Sys2Proof.Machine

/-- The two modes of the data/command line (R42): kept symbolic, the level of each is a parameter. -/
inductive DcMode where
  | cmd
  | data
  deriving DecidableEq, Repr, Inhabited

/-- The event alphabet (R40): all the block does to the world. -/
inductive Event where
  | cs (l : Level)
  | dc (m : DcMode)
  | rst (l : Level)
  | bl (l : Level)
  | xfer (b : Bytes)
  | delay (ms : Nat)
  deriving DecidableEq, Repr

/-- `G_LIFE` (R51). -/
inductive Life where
  | uninitialized
  | resetting
  | initializing
  | ready
  deriving DecidableEq, Repr

/-- `G_SLEEP` (R52). -/
inductive PanelSleep where
  | awake
  | asleep
  deriving DecidableEq, Repr

/-- `G_DISP` (R53). -/
inductive PanelDisplay where
  | displayOn
  | displayOff
  deriving DecidableEq, Repr

/-- The status of a completion record (R261). -/
inductive Status where
  | ok
  | illegalRequest
  | notConstructed
  | constructLines
  | constructGeometry
  | busError
  | badOperand
  deriving DecidableEq, Repr

/-- The value of a completion record (R37). -/
inductive Value where
  /-- No value: every request but four, and every status but OK. -/
  | empty
  /-- PACK565: a `u16`. -/
  | color (c : Half)
  /-- GETROT: 0 to 3. -/
  | rotation (n : BitVec 2)
  /-- GETDIM: width, then height. -/
  | dims (width height : Half)
  /-- EXPBMP: the count of bytes written, then those bytes of the output buffer. -/
  | expanded (n : Quad) (out : Bytes)
  deriving DecidableEq, Repr

/-- A completion record (R37). -/
structure Record where
  status : Status
  value : Value
  deriving DecidableEq, Repr

/-- The configuration registers of a constructed Device (R22 to R28). -/
structure Device where
  /-- `WIDTH` (R22). -/
  width : Half
  /-- `HEIGHT` (R22). -/
  height : Half
  /-- `XSTART` (R23). -/
  xstart : Half
  /-- `YSTART` (R23). -/
  ystart : Half
  /-- `HAS_CS` (R24). -/
  hasCs : Bool
  /-- `HAS_BL` (R25). -/
  hasBl : Bool
  /-- `ROT_CAP` (R26). -/
  rotCap : Bool
  /-- `ROT_REQ`, an `i16` (R28). -/
  rotReq : Half
  /-- `ROTATION`, two bits (R27). -/
  rotation : BitVec 2
  deriving DecidableEq, Repr

/-- The operand latches (R33): the scalar operands in descriptor order as integers, the input buffer `B` and the output
buffer `O` where the request has one. -/
structure Latches where
  x : List Int
  b : Option Bytes
  o : Option Bytes
  deriving DecidableEq, Repr

/-- The stream working registers (R34): `S_CHUNKS`, `S_REM`, `S_POS`. -/
structure StreamRegs where
  chunks : Nat
  rem : Nat
  pos : Nat
  deriving DecidableEq, Repr

/-- The line working registers (R35), `L_STEEP` to `L_RUNLEN`. -/
structure LineRegs where
  steep : Bool
  x0 : Int
  y0 : Int
  x1 : Int
  y1 : Int
  dx : Int
  dy : Int
  err : Int
  ystep : Int
  x : Int
  y : Int
  runStart : Int
  runLen : Nat
  deriving DecidableEq, Repr

/-- Faults of the machine: none. Every byte string at the request port is a legal request or completes with
ILLEGAL_REQUEST (R114, R262), every other error is a status of the completion record (R261), and no rule reads a
register that has no value (93_implementation_defined.md U9), so no step ends in a fault. -/
inductive Fault where
  deriving DecidableEq, Repr

/-- Refusals of the machine. -/
inductive Refusal where
  /-- An instruction whose meaning is not written yet: raised by no arm of the dispatcher in this model. Safe: it only
  stops a run. -/
  | notModelled (mnemonic : String)
  deriving DecidableEq, Repr

/-- The state of the block, with the run's parameters and the model's bookkeeping of the ports (R31, R40, R45, R56). -/
structure State where
  /-- The configuration registers; `CONSTRUCTED` is whether they are there (R21, R55). -/
  device : Option Device
  /-- `FAULT`, sticky (R30). -/
  fault : Bool
  /-- `BUSY` (R30). -/
  busy : Bool
  /-- Operand latches (R33); no value between requests. -/
  latches : Option Latches
  /-- `STAGE`, 256 bytes (R38); no value between requests. -/
  stage : Option Bytes
  /-- Stream working registers (R34); no value between requests. -/
  stream : Option StreamRegs
  /-- Line working registers (R35); no value between requests. -/
  line : Option LineRegs
  /-- `L_CS` (R44). -/
  lCs : Option Level
  /-- `L_DC` (R44), by mode; its level is `dcLevel`. -/
  lDc : Option DcMode
  /-- `L_RST` (R44). -/
  lRst : Option Level
  /-- `L_BL` (R44). -/
  lBl : Option Level
  /-- `G_LIFE` (R51), ghost. -/
  gLife : Option Life
  /-- `G_SLEEP` (R52), ghost. -/
  gSleep : Option PanelSleep
  /-- `G_DISP` (R53), ghost. -/
  gDisp : Option PanelDisplay
  /-- The output trace, oldest event first (R40). -/
  trace : List Event
  /-- What the completion port has produced, oldest record first (R37, R45). -/
  records : List Record
  /-- The request pointer `rp` (R31). -/
  rp : Nat
  /-- The run's list of requests, each a descriptor (R31, R56). -/
  requests : List Bytes
  /-- Transfers made since block reset: the index of the next one in the bus oracle (R266). -/
  xfers : Nat
  /-- The run's open parameters (R12, R56). -/
  params : Params
  /-- Outcomes of the first transfers since block reset; past its end the outcome is the oracle's (R266). -/
  busScript : List BusResult
  deriving DecidableEq, Repr

/-- Block reset (R55, R290): no Device, FAULT and BUSY 0, everything else without value, nothing emitted, `rp` 0. No
request is presented yet, the parameters and every bus outcome are unknown constants. -/
def State.reset : State where
  device := none
  fault := false
  busy := false
  latches := none
  stage := none
  stream := none
  line := none
  lCs := none
  lDc := none
  lRst := none
  lBl := none
  gLife := none
  gSleep := none
  gDisp := none
  trace := []
  records := []
  rp := 0
  requests := []
  xfers := 0
  params := Config.params
  busScript := []

/-- `CONSTRUCTED` (R21). -/
def State.constructed (s : State) : Bool := s.device.isSome

end Sys2Proof.Machine
end

