-- ==== Sys2Proof/Machine/Flags.lean ====
section
/-! DEFINITION. The status bits and the completion record: FAULT (R30, R266), the status codes (R261), the bytes of a
record (R117), and what a command byte does to the ghost variables (R146). The block has no other flags (R30). -/

namespace Sys2Proof.Machine

/-- `FAULT <- 1` (R30, R266). -/
def setFault (s : State) : State := { s with fault := true }

/-- The codes of R261. -/
def statusCode : Status → Byte
  | .ok => 0
  | .illegalRequest => 1
  | .notConstructed => 2
  | .constructLines => 3
  | .constructGeometry => 4
  | .busError => 5
  | .badOperand => 6

/-- The value part of a completion record's bytes (R117). -/
def valueBytes : Value → Bytes
  | .empty => []
  | .color c => be16 c
  | .rotation n => [n.setWidth 8]
  | .dims width height => be16 width ++ be16 height
  | .expanded n out => be32 n ++ out

/-- The bytes of a completion record (R117). -/
def recordBytes (r : Record) : Bytes := statusCode r.status :: valueBytes r.value

/-- The sleep state a frame's command byte puts the panel in, as the ghost variable records it (R146). R52 names HRESET and
SRESET only; R146 adds the host SEND of 0x01 (DEDUCED, notes/assumptions/17.md). -/
def sleepAfter (cmd : Byte) : Option PanelSleep :=
  if cmd = cmdSlpout then some .awake
  else if cmd = cmdSlpin then some .asleep
  else if cmd = cmdSwreset then some .asleep
  else none

/-- The display state a frame's command byte puts the panel in, as the ghost variable records it (R146): DisplayOn by 0x29,
DisplayOff by 0x01, at once after a host SEND. R53's "no other request sets DisplayOff" is read as of the display-off
command that does not exist, not as of the software-reset command (DEDUCED, notes/assumptions/17.md). -/
def displayAfter (cmd : Byte) : Option PanelDisplay :=
  if cmd = cmdDispon then some .displayOn
  else if cmd = cmdSwreset then some .displayOff
  else none

end Sys2Proof.Machine
end

