-- ==== Sys2Proof/Machine/Operands.lean ====
section
/-! DEFINITION. Operands: their conversion to the integers (R14, R111), what each request latches (R33), and the pure
computations the rules make of them: colour bytes, panel addresses, window validation, addressing-mode bytes. -/

namespace Sys2Proof.Machine

/-- `sext_16` (R14, R111). -/
def sext16 (v : Half) : Int := v.toInt

/-- `sext_32` (R14, R111). -/
def sext32 (v : Quad) : Int := v.toInt

/-- `zext_16` (R14, R111). -/
def zext16 (v : Half) : Int := v.toNat

/-- The two wire bytes of a colour, high byte first (R66, R95). -/
def colorBytes (c : Half) : Bytes := be16 c

/-- A panel address: coordinate plus origin, reduced modulo 65536 (R64, R173). -/
def wireAddr (coord : Int) (origin : Half) : Half := BitVec.ofInt 16 (coord + zext16 origin)

/-- The validation predicate of SETWIN (R170, R171). -/
def windowValid (d : Device) (p : Params) (x0 y0 x1 y1 : Int) : Bool :=
  decide (x0 ≤ x1) && decide (x1 < zext16 d.width) && decide (y0 ≤ y1) && decide (y1 < zext16 d.height) &&
    match p.negCoordPolicy with
    | .literal => true
    | .reject => decide (0 ≤ x0) && decide (0 ≤ y0)

/-- `MADCTL_ROT[n]` (R12). -/
def madctlRot (p : Params) (n : BitVec 2) : Byte :=
  if n = 0 then p.madctlRot0
  else if n = 1 then p.madctlRot1
  else if n = 2 then p.madctlRot2
  else p.madctlRot3

/-- The data byte of the addressing-mode frame of ROTATE (R97). -/
def madctlByte (p : Params) (n : BitVec 2) : Byte := madctlRot p n ||| p.madctlRgb

/-- `PRESETS(width, height)` (R12, R232): the origin of a known panel size. -/
def presetOrigin (p : Params) (width height : Half) : Option (Half × Half) :=
  match p.presets.find? (fun r => r.width == width && r.height == height) with
  | some r => some (r.xstart, r.ystart)
  | none => none

/-- The origin CONFIG gives the Device (R230): an explicit one wins over a preset. -/
def configOrigin (p : Params) (f : ConfigFields) : Option (Half × Half) :=
  if f.orgp then some (f.xorg, f.yorg) else presetOrigin p f.width f.height

/-- The level the data/command line has in a mode (R42). -/
def modeLevel (p : Params) : DcMode → Level
  | .cmd => p.dcCmdLevel
  | .data => if p.dcCmdLevel = .low then .high else .low

/-- The level last written to the data/command line (R42, R44). -/
def dcLevel (s : State) : Option Level := s.lDc.map (modeLevel s.params)

/-- `MemRead(B, i, n)` (R15). -/
def memRead (b : Bytes) (i n : Nat) : Bytes := (b.drop i).take n

/-- Scalar latches only. -/
def scalars (x : List Int) : Latches := ⟨x, none, none⟩

/-- What decoding latches of an instruction (R33): the scalar fields of its descriptor in order, and its buffer. A wire
frame latches what the SEND that makes it would. -/
def latchesOf : Instr → Latches
  | .config f =>
    scalars [(configFlags f).toNat, zext16 f.width, zext16 f.height, sext16 f.rot, zext16 f.xorg, zext16 f.yorg]
  | .pack565 r g b => scalars [r.toNat, g.toNat, b.toNat]
  | .expbmp width fg bg olen src =>
    ⟨[sext16 width, zext16 fg, zext16 bg, olen.toNat, src.length], some src, some []⟩
  | .send none data => ⟨[0, 0, data.length], some data, none⟩
  | .send (some c) data => ⟨[1, c.toNat, data.length], some data, none⟩
  | .setwin x0 y0 x1 y1 => scalars [sext16 x0, sext16 y0, sext16 x1, sext16 y1]
  | .sfill color count => scalars [zext16 color, sext32 count]
  | .blit x y w h buf => ⟨[sext16 x, sext16 y, sext16 w, sext16 h, buf.length], some buf, none⟩
  | .pixel x y color => scalars [sext16 x, sext16 y, zext16 color]
  | .hline x y len color => scalars [sext16 x, sext16 y, sext16 len, zext16 color]
  | .vline x y len color => scalars [sext16 x, sext16 y, sext16 len, zext16 color]
  | .line x0 y0 x1 y1 color => scalars [sext16 x0, sext16 y0, sext16 x1, sext16 y1, zext16 color]
  | .rect x y w h color => scalars [sext16 x, sext16 y, sext16 w, sext16 h, zext16 color]
  | .frect x y w h color => scalars [sext16 x, sext16 y, sext16 w, sext16 h, zext16 color]
  | .fill color => scalars [zext16 color]
  | .hreset => scalars []
  | .sreset => scalars []
  | .init => scalars []
  | .sleep en => scalars [(enByte en).toNat]
  | .invert en => scalars [(enByte en).toNat]
  | .blon => scalars []
  | .bloff => scalars []
  | .rotate n => scalars [sext16 n]
  | .getrot => scalars []
  | .getdim => scalars []
  | .swreset => ⟨[1, cmdSwreset.toNat, 0], some [], none⟩
  | .slpin => ⟨[1, cmdSlpin.toNat, 0], some [], none⟩
  | .slpout => ⟨[1, cmdSlpout.toNat, 0], some [], none⟩
  | .noron => ⟨[1, cmdNoron.toNat, 0], some [], none⟩
  | .invoff => ⟨[1, cmdInvoff.toNat, 0], some [], none⟩
  | .invon => ⟨[1, cmdInvon.toNat, 0], some [], none⟩
  | .dispon => ⟨[1, cmdDispon.toNat, 0], some [], none⟩
  | .caset xs xe => ⟨[1, cmdCaset.toNat, 4], some (be16 xs ++ be16 xe), none⟩
  | .raset ys ye => ⟨[1, cmdRaset.toNat, 4], some (be16 ys ++ be16 ye), none⟩
  | .ramwr => ⟨[1, cmdRamwr.toNat, 0], some [], none⟩
  | .madctl v => ⟨[1, cmdMadctl.toNat, 1], some [v], none⟩
  | .colmod v => ⟨[1, cmdColmod.toNat, 1], some [v], none⟩

end Sys2Proof.Machine
end

