-- ==== Sys2Proof/Machine/Ops.lean ====
section
/-! DEFINITION. The shared operations. The rule of a request that works on the panel is a straight sequence of actions
(`Act`): line writes, transfers, delays, register writes (00_scope.md R15). `runActs` performs them in order and stops
at the first transfer the bus reports failed (R266, R277); `call OP` is concatenation. `acceptRequest` and `complete`
are the two ends of every request, and `raiseStatus` is the one way a request ends with a status other than OK. -/

namespace Sys2Proof.Machine

/-- One action of a request's rule (R15). -/
inductive Act where
  /-- `emit CS(l)`. -/
  | cs (l : Level)
  /-- `emit DC(m)`. -/
  | dc (m : DcMode)
  /-- `emit RST(l)`. -/
  | rst (l : Level)
  /-- `emit BL(l)`. -/
  | bl (l : Level)
  /-- `emit DELAY(ms)`. -/
  | delay (ms : Nat)
  /-- `xfer(b)`. -/
  | xfer (b : Bytes)
  /-- Write of the Device's registers (ROTATE only, R247). -/
  | device (d : Device)
  /-- Write of `STAGE` (R183). -/
  | stage (b : Bytes)
  /-- Write of the stream working registers (R34). -/
  | stream (r : StreamRegs)
  /-- Write of the line working registers (R35). -/
  | line (r : LineRegs)
  /-- Write of the ghost `G_LIFE` (R51). -/
  | life (g : Life)
  /-- Write of the ghost `G_SLEEP` (R52). -/
  | sleep (g : PanelSleep)
  /-- Write of the ghost `G_DISP` (R53). -/
  | disp (g : PanelDisplay)
  deriving DecidableEq, Repr

/-- The event an action emits, if it emits one. -/
def actEvent : Act → Option Event
  | .cs l => some (.cs l)
  | .dc m => some (.dc m)
  | .rst l => some (.rst l)
  | .bl l => some (.bl l)
  | .delay ms => some (.delay ms)
  | .xfer b => some (.xfer b)
  | .device _ => none
  | .stage _ => none
  | .stream _ => none
  | .line _ => none
  | .life _ => none
  | .sleep _ => none
  | .disp _ => none

/-- The events a sequence of actions emits when every transfer succeeds. -/
def eventsOf (acts : List Act) : List Event := acts.filterMap actEvent

/-- The effect of one action; of a transfer, the effect it has whatever its outcome (R266). Every line write is emitted
and sets the line's latch (R43, R44). -/
def applyAct (a : Act) (s : State) : State :=
  match a with
  | .cs l => { s with trace := s.trace ++ [.cs l], lCs := some l }
  | .dc m => { s with trace := s.trace ++ [.dc m], lDc := some m }
  | .rst l => { s with trace := s.trace ++ [.rst l], lRst := some l }
  | .bl l => { s with trace := s.trace ++ [.bl l], lBl := some l }
  | .delay ms => { s with trace := s.trace ++ [.delay ms] }
  | .xfer b => { s with trace := s.trace ++ [.xfer b], xfers := s.xfers + 1 }
  | .device d => { s with device := some d }
  | .stage b => { s with stage := some b }
  | .stream r => { s with stream := some r }
  | .line r => { s with line := some r }
  | .life g => { s with gLife := some g }
  | .sleep g => { s with gSleep := some g }
  | .disp g => { s with gDisp := some g }

/-- The effect of a sequence of actions when every transfer succeeds. -/
def applyActs (acts : List Act) (s : State) : State := acts.foldl (fun t a => applyAct a t) s

/-- The outcome the bus collaborator reports for transfer number `k` of the run (R266). -/
def outcomeAt (s : State) (k : Nat) : BusResult :=
  match s.busScript[k]? with
  | some r => r
  | none => Config.busOutcome k

/-- Where a request stands after some of its actions: still running, or stopped by a `raise` (R15). -/
inductive Flow where
  | running (s : State)
  | raised (st : Status) (s : State)
  deriving DecidableEq, Repr

/-- One action. A transfer whose outcome is failure sets FAULT and raises BusFault (R266); nothing else can raise. -/
def stepAct (a : Act) (s : State) : Flow :=
  match a with
  | .xfer b =>
    match outcomeAt s s.xfers with
    | .ok => .running (applyAct (.xfer b) s)
    | .fail => .raised .busError (setFault (applyAct (.xfer b) s))
  | _ => .running (applyAct a s)

/-- The actions in order, up to the first that raises (R266, R277, R278). -/
def runActs : List Act → State → Flow
  | [], s => .running s
  | a :: rest, s =>
    match stepAct a s with
    | .running t => runActs rest t
    | .raised st t => .raised st t

/-- Acceptance of a request (R30, R33): BUSY rises and the operands are latched. -/
def acceptRequest (l : Latches) (s : State) : State := { s with busy := true, latches := some l }

/-- Completion of a request with any status (R31, R37, R277): the record is produced, BUSY falls, the transient state
has no value any more (R32, R38) and the request pointer advances. -/
def complete (st : Status) (v : Value) (s : State) : State :=
  { s with
    busy := false
    latches := none
    stage := none
    stream := none
    line := none
    records := s.records ++ [⟨st, v⟩]
    rp := s.rp + 1 }

/-- `raise` (R15, R277): the request ends with a status other than OK and an empty value (R37). -/
def raiseStatus (st : Status) (s : State) : Host.Outcome State Fault Refusal := .next (complete st .empty s)

/-- A request that ran to its end (R261, status OK). -/
def succeed (v : Value) (s : State) : Host.Outcome State Fault Refusal := .next (complete .ok v s)

/-- The end of a request whose rule is a sequence of actions and whose value is empty. -/
def finishFlow (f : Flow) : Host.Outcome State Fault Refusal :=
  match f with
  | .running s => succeed .empty s
  | .raised st s => raiseStatus st s

/-- Perform the actions and complete. -/
def drive (acts : List Act) (s : State) : Host.Outcome State Fault Refusal := finishFlow (runActs acts s)

/-- A request that needs a Device (R263): accepted, and NOT_CONSTRUCTED without one. -/
def withDevice (l : Latches) (s : State) (k : Device → State → Host.Outcome State Fault Refusal) :
    Host.Outcome State Fault Refusal :=
  match s.device with
  | none => raiseStatus .notConstructed (acceptRequest l s)
  | some d => k d (acceptRequest l s)

/-- A request of the rotation-capable variant only (R264): ILLEGAL_REQUEST on the other. -/
def whenRotCapable (d : Device) (s : State) (k : State → Host.Outcome State Fault Refusal) :
    Host.Outcome State Fault Refusal :=
  if d.rotCap then k s else raiseStatus .illegalRequest s

/-- A descriptor the decoder rejects (R262): BUSY rises and falls, the record says ILLEGAL_REQUEST, nothing else
changes. -/
def illegalRequest (s : State) : Host.Outcome State Fault Refusal := raiseStatus .illegalRequest { s with busy := true }

/-- The request the host presents next (R31); none when the list is at its end. -/
def presented (s : State) : Option Bytes := s.requests[s.rp]?

/-- The run's list with a descriptor at the place of the next request (R31). -/
def placeRequest (b : Bytes) (s : State) : List Bytes :=
  let before := s.requests.take s.rp
  before ++ List.replicate (s.rp - before.length) [] ++ [b] ++ s.requests.drop (s.rp + 1)

end Sys2Proof.Machine
end

