-- ==== Sys2Proof/Machine/ColorCodec.lean ====
section
/-! DEFINITION. The colour codec (40_color_codec.md): PACK565 and EXPBMP. Pure functions of their operands, accepted
whether or not there is a Device (R21, R263). -/

namespace Sys2Proof.Machine

/-- R130, the document's formula on the operands as integers. -/
def pack565 (r g b : Byte) : Half :=
  BitVec.ofNat 16 (((r.toNat &&& 0xF8) <<< 8) ||| ((g.toNat &&& 0xFC) <<< 3) ||| ((b.toNat &&& 0xF8) >>> 3))

/-- R130. -/
def execPack565 (r g b : Byte) (s : State) : Host.Outcome State Fault Refusal :=
  succeed (.color (pack565 r g b)) (acceptRequest (latchesOf (.pack565 r g b)) s)

/-- One source byte of EXPBMP, bits `n-1` down to 0 (R67, R132): the pairs written and the row counter after them. A full
row discards the rest of the byte. -/
def expandByte (width : Nat) (fg bg : Half) (byte : Byte) : Nat → Nat → Bytes × Nat
  | 0, row => ([], row)
  | n + 1, row =>
    let pair := colorBytes (if byte.getLsbD n then fg else bg)
    if row + 1 = width then (pair, 0)
    else
      let after := expandByte width fg bg byte n (row + 1)
      (pair ++ after.1, after.2)

/-- The loop of R132 over the source bytes, from a value of the row counter. -/
def expandBytes (width : Nat) (fg bg : Half) : Bytes → Nat → Bytes
  | [], _ => []
  | byte :: rest, row =>
    let one := expandByte width fg bg byte 8 row
    one.1 ++ expandBytes width fg bg rest one.2

/-- `need` of R132: the bytes the expansion writes, for a width of at least 1. -/
def expandNeed (width slen : Nat) : Nat :=
  let bpr := (width + 7) / 8
  2 * ((slen / bpr) * width + 8 * (slen % bpr))

/-- `MemWrite` of the whole expansion to the request's output buffer `O` (R15, R132). -/
def writeOutput (out : Bytes) (s : State) : State :=
  { s with latches := s.latches.map fun l => { l with o := some out } }

/-- R132. The width is checked before the capacity (R276). -/
def execExpbmp (width fg bg : Half) (olen : Quad) (src : Bytes) (s : State) : Host.Outcome State Fault Refusal :=
  let s1 := acceptRequest (latchesOf (.expbmp width fg bg olen src)) s
  let w := sext16 width
  if w < 1 then raiseStatus .badOperand s1
  else if olen.toNat < expandNeed w.toNat src.length then raiseStatus .badOperand s1
  else
    let out := expandBytes w.toNat fg bg src 0
    succeed (.expanded (BitVec.ofNat 32 out.length) out) (writeOutput out s1)

end Sys2Proof.Machine
end

