-- ==== Sys2Proof/Machine/Framing.lean ====
section
/-! DEFINITION. Command framing (41_command_framing.md): SEND and the twelve wire command frames. Every frame is one
execution of SEND (R90, R140). -/

namespace Sys2Proof.Machine

/-- A chip-select write, skipped when the Device has no such line (R24). -/
def csActs (d : Device) (l : Level) : List Act := if d.hasCs then [.cs l] else []

/-- Step 2 of R140: the command byte, if there is one. -/
def cmdActs : Option Byte → List Act
  | none => []
  | some c => [.dc .cmd, .xfer [c]]

/-- Step 3 of R140: the data, if there is any, in one transfer (R141). -/
def dataActs : Bytes → List Act
  | [] => []
  | b :: rest => [.dc .data, .xfer (b :: rest)]

/-- The four steps of R140. -/
def frameActs (d : Device) (cmd : Option Byte) (data : Bytes) : List Act :=
  csActs d .low ++ cmdActs cmd ++ dataActs data ++ csActs d .high

/-- The ghost writes of a frame that has been emitted (R146). -/
def ghostActs : Option Byte → List Act
  | none => []
  | some c => ((sleepAfter c).map Act.sleep).toList ++ ((displayAfter c).map Act.disp).toList

/-- `call SEND(cmd, data)` (R140, R146). -/
def sendActs (d : Device) (cmd : Option Byte) (data : Bytes) : List Act := frameActs d cmd data ++ ghostActs cmd

/-- R150. -/
def swresetActs (d : Device) : List Act := sendActs d (some cmdSwreset) []
/-- R151. -/
def slpinActs (d : Device) : List Act := sendActs d (some cmdSlpin) []
/-- R152. -/
def slpoutActs (d : Device) : List Act := sendActs d (some cmdSlpout) []
/-- R153. -/
def noronActs (d : Device) : List Act := sendActs d (some cmdNoron) []
/-- R154. -/
def invoffActs (d : Device) : List Act := sendActs d (some cmdInvoff) []
/-- R155. -/
def invonActs (d : Device) : List Act := sendActs d (some cmdInvon) []
/-- R156. -/
def disponActs (d : Device) : List Act := sendActs d (some cmdDispon) []
/-- R157, R92: the column bounds, each high byte first. -/
def casetActs (d : Device) (xs xe : Half) : List Act := sendActs d (some cmdCaset) (be16 xs ++ be16 xe)
/-- R158, R93: the row bounds, each high byte first. -/
def rasetActs (d : Device) (ys ye : Half) : List Act := sendActs d (some cmdRaset) (be16 ys ++ be16 ye)
/-- R159, R94. -/
def ramwrActs (d : Device) : List Act := sendActs d (some cmdRamwr) []
/-- R160, R97. -/
def madctlActs (d : Device) (v : Byte) : List Act := sendActs d (some cmdMadctl) [v]
/-- R161, R96. -/
def colmodActs (d : Device) (v : Byte) : List Act := sendActs d (some cmdColmod) [v]

/-- R140. -/
def execSend (cmd : Option Byte) (data : Bytes) (s : State) : Host.Outcome State Fault Refusal :=
  withDevice (latchesOf (.send cmd data)) s fun d t => drive (sendActs d cmd data) t

/-- R150. -/
def execSwreset (s : State) : Host.Outcome State Fault Refusal :=
  withDevice (latchesOf .swreset) s fun d t => drive (swresetActs d) t

/-- R151. -/
def execSlpin (s : State) : Host.Outcome State Fault Refusal :=
  withDevice (latchesOf .slpin) s fun d t => drive (slpinActs d) t

/-- R152. -/
def execSlpout (s : State) : Host.Outcome State Fault Refusal :=
  withDevice (latchesOf .slpout) s fun d t => drive (slpoutActs d) t

/-- R153. -/
def execNoron (s : State) : Host.Outcome State Fault Refusal :=
  withDevice (latchesOf .noron) s fun d t => drive (noronActs d) t

/-- R154. -/
def execInvoff (s : State) : Host.Outcome State Fault Refusal :=
  withDevice (latchesOf .invoff) s fun d t => drive (invoffActs d) t

/-- R155. -/
def execInvon (s : State) : Host.Outcome State Fault Refusal :=
  withDevice (latchesOf .invon) s fun d t => drive (invonActs d) t

/-- R156. -/
def execDispon (s : State) : Host.Outcome State Fault Refusal :=
  withDevice (latchesOf .dispon) s fun d t => drive (disponActs d) t

/-- R157. -/
def execCaset (xs xe : Half) (s : State) : Host.Outcome State Fault Refusal :=
  withDevice (latchesOf (.caset xs xe)) s fun d t => drive (casetActs d xs xe) t

/-- R158. -/
def execRaset (ys ye : Half) (s : State) : Host.Outcome State Fault Refusal :=
  withDevice (latchesOf (.raset ys ye)) s fun d t => drive (rasetActs d ys ye) t

/-- R159. -/
def execRamwr (s : State) : Host.Outcome State Fault Refusal :=
  withDevice (latchesOf .ramwr) s fun d t => drive (ramwrActs d) t

/-- R160. -/
def execMadctl (v : Byte) (s : State) : Host.Outcome State Fault Refusal :=
  withDevice (latchesOf (.madctl v)) s fun d t => drive (madctlActs d v) t

/-- R161. -/
def execColmod (v : Byte) (s : State) : Host.Outcome State Fault Refusal :=
  withDevice (latchesOf (.colmod v)) s fun d t => drive (colmodActs d v) t

end Sys2Proof.Machine
end

