-- ==== Sys2Proof/Machine/Window.lean ====
section
/-! DEFINITION. The window address manager (42_window_manager.md): SETWIN. -/

namespace Sys2Proof.Machine

/-- `call SETWIN(x0, y0, x1, y1)` (R170): nothing at all when validation fails (R172), else the three frames CASET,
RASET, RAMWR with the origin added (R173). -/
def setwinActs (d : Device) (p : Params) (x0 y0 x1 y1 : Int) : List Act :=
  if windowValid d p x0 y0 x1 y1 then
    casetActs d (wireAddr x0 d.xstart) (wireAddr x1 d.xstart) ++
      rasetActs d (wireAddr y0 d.ystart) (wireAddr y1 d.ystart) ++ ramwrActs d
  else []

/-- R170. -/
def execSetwin (x0 y0 x1 y1 : Half) (s : State) : Host.Outcome State Fault Refusal :=
  withDevice (latchesOf (.setwin x0 y0 x1 y1)) s fun d t =>
    drive (setwinActs d s.params (sext16 x0) (sext16 y0) (sext16 x1) (sext16 y1)) t

end Sys2Proof.Machine
end

