-- ==== Sys2Proof/Machine/Streamer.lean ====
section
/-! DEFINITION. The pixel stream chunker (43_pixel_streamer.md): the STREAM primitive, SFILL, BLIT. -/

namespace Sys2Proof.Machine

/-- `STAGE_PIXELS` (R10). -/
def stagePixels : Nat := 128

/-- `CHUNK_BYTES` and `STAGE_BYTES` (R10): the size of one full transfer of a stream. -/
def chunkBytes : Nat := 256

/-- Where a stream takes its bytes from, the source `S_POS` is an offset in (R34). -/
inductive StreamSource where
  /-- The bytes themselves, one transfer after the other: the request's buffer (BLIT), a colour's two bytes (PIXEL). -/
  | buffer
  /-- STAGE: every transfer starts at its start (R38, R183). -/
  | stage
  deriving DecidableEq, Repr

/-- How far `S_POS` moves in its source with one full transfer (R34, R38; notes/assumptions/16.md). -/
def sourceAdvance : StreamSource → Nat
  | .buffer => chunkBytes
  | .stage => 0

/-- The transfers of a stream (R180), each with the working registers (R34) it is made from: `full` transfers still to
make, then one of the `rem` bytes left. -/
def streamPlan (src : StreamSource) : Nat → Nat → Nat → Bytes → List (StreamRegs × Bytes)
  | 0, rem, pos, rest => if rem = 0 then [] else [(⟨0, rem, pos⟩, rest)]
  | full + 1, rem, pos, rest =>
    (⟨full + 1, rem, pos⟩, rest.take chunkBytes) ::
      streamPlan src full rem (pos + sourceAdvance src) (rest.drop chunkBytes)

/-- The transfers of the stream of `bytes` (R180). -/
def streamTransfers (src : StreamSource) (bytes : Bytes) : List (StreamRegs × Bytes) :=
  streamPlan src (bytes.length / chunkBytes) (bytes.length % chunkBytes) 0 bytes

/-- `DC(data)` and all transfers of a stream framed once; nothing for an empty stream (R181). -/
def streamDataActs : List (StreamRegs × Bytes) → List Act
  | [] => []
  | t :: rest => .dc .data :: (t :: rest).flatMap fun u => [.stream u.1, .xfer u.2]

/-- `call STREAM(bytes)` (R181), by the value of `STREAM_FRAMING`. -/
def streamActs (d : Device) (p : Params) (src : StreamSource) (bytes : Bytes) : List Act :=
  match p.streamFraming with
  | .perStream => csActs d .low ++ streamDataActs (streamTransfers src bytes) ++ csActs d .high
  | .perChunk => (streamTransfers src bytes).flatMap fun u => .stream u.1 :: frameActs d none u.2

/-- `STAGE` filled with a colour (R38, R183): its two bytes, high byte first, 128 times. -/
def stageFill (color : Half) : Bytes := (List.replicate stagePixels (colorBytes color)).flatten

/-- The bytes SFILL streams for `n` pixels (R183). -/
def fillBytes (color : Half) (n : Nat) : Bytes :=
  (List.replicate (n / stagePixels) (stageFill color)).flatten ++ (stageFill color).take (2 * (n % stagePixels))

/-- `call SFILL(color, count)` (R183): a count of zero or below streams nothing (R185). -/
def sfillActs (d : Device) (p : Params) (color : Half) (count : Int) : List Act :=
  .stage (stageFill color) :: streamActs d p .stage (fillBytes color count.toNat)

/-- The number of bytes BLIT streams (R188). -/
def blitCount (blen : Nat) (w h : Int) : Nat := (min (blen : Int) (w * h * 2)).toNat

/-- `call BLIT` (R188). -/
def blitActs (d : Device) (p : Params) (x y w h : Int) (buf : Bytes) : List Act :=
  setwinActs d p x y (x + w - 1) (y + h - 1) ++ streamActs d p .buffer (memRead buf 0 (blitCount buf.length w h))

/-- R183. -/
def execSfill (color : Half) (count : Quad) (s : State) : Host.Outcome State Fault Refusal :=
  withDevice (latchesOf (.sfill color count)) s fun d t => drive (sfillActs d s.params color (sext32 count)) t

/-- R188. -/
def execBlit (x y w h : Half) (buf : Bytes) (s : State) : Host.Outcome State Fault Refusal :=
  withDevice (latchesOf (.blit x y w h buf)) s fun d t =>
    drive (blitActs d s.params (sext16 x) (sext16 y) (sext16 w) (sext16 h) buf) t

end Sys2Proof.Machine
end

