-- ==== Sys2Proof/Machine/Rasterizer.lean ====
section
/-! DEFINITION. The rasterizer (44_rasterizer.md): PIXEL, HLINE, VLINE, LINE, RECT, FRECT, FILL. Coordinates are
integers, never wrapped (R14, R214). -/

namespace Sys2Proof.Machine

/-- `call PIXEL(x, y, color)` (R200). -/
def pixelActs (d : Device) (p : Params) (x y : Int) (color : Half) : List Act :=
  setwinActs d p x y x y ++ streamActs d p .buffer (colorBytes color)

/-- `call HLINE(x, y, len, color)` (R202). -/
def hlineActs (d : Device) (p : Params) (x y len : Int) (color : Half) : List Act :=
  setwinActs d p x y (x + len - 1) y ++ sfillActs d p color len

/-- `call VLINE(x, y, len, color)` (R204). -/
def vlineActs (d : Device) (p : Params) (x y len : Int) (color : Half) : List Act :=
  setwinActs d p x y x (y + len - 1) ++ sfillActs d p color len

/-- One call LINE makes: a pixel or a run, in screen coordinates (R210 FLUSH). -/
inductive LineCall where
  | pixel (x y : Int)
  | hline (x y len : Int)
  | vline (x y len : Int)
  deriving DecidableEq, Repr

/-- `FLUSH(L_RUNSTART, L_Y, L_RUNLEN)` (R210, R212 c). -/
def flushCall (r : LineRegs) : LineCall :=
  if r.runLen = 1 then
    if r.steep then .pixel r.y r.runStart else .pixel r.runStart r.y
  else if r.steep then .vline r.y r.runStart r.runLen
  else .hline r.runStart r.y r.runLen

/-- Steps 1 to 3 of R210. -/
def lineSetup (x0 y0 x1 y1 : Int) : LineRegs :=
  let steep := decide ((x1 - x0).natAbs < (y1 - y0).natAbs)
  let a := if steep then (y0, x0, y1, x1) else (x0, y0, x1, y1)
  let b := if a.2.2.1 < a.1 then (a.2.2.1, a.2.2.2, a.1, a.2.1) else a
  let dx := b.2.2.1 - b.1
  { steep := steep
    x0 := b.1
    y0 := b.2.1
    x1 := b.2.2.1
    y1 := b.2.2.2
    dx := dx
    dy := (b.2.2.2 - b.2.1).natAbs
    err := dx / 2
    ystep := if b.2.1 < b.2.2.2 then 1 else -1
    x := b.1
    y := b.2.1
    runStart := b.1
    runLen := 0 }

/-- The registers after `L_RUNLEN + 1` and `L_ERR - L_DY` in one iteration of step 4. -/
def lineAdvance (r : LineRegs) : LineRegs := { r with runLen := r.runLen + 1, err := r.err - r.dy }

/-- The registers at the next iteration when the run goes on. -/
def lineContinue (r : LineRegs) : LineRegs := { r with x := r.x + 1 }

/-- The registers at the next iteration after a flush (R212 a: the counter is reset). -/
def lineNewRun (r : LineRegs) : LineRegs :=
  { r with err := r.err + r.dx, y := r.y + r.ystep, runStart := r.x + 1, runLen := 0, x := r.x + 1 }

/-- Steps 4 and 5 of R210, `n` iterations left: the working registers at each point, and the call flushed there. -/
def lineWalk : Nat → LineRegs → List (LineRegs × Option LineCall)
  | 0, r => [(r, if 0 < r.runLen then some (flushCall r) else none)]
  | n + 1, r =>
    let a := lineAdvance r
    if a.err < 0 then (a, some (flushCall a)) :: lineWalk n (lineNewRun a)
    else (a, none) :: lineWalk n (lineContinue a)

/-- All of LINE's walk (R210). -/
def linePlan (x0 y0 x1 y1 : Int) : List (LineRegs × Option LineCall) :=
  let r := lineSetup x0 y0 x1 y1
  lineWalk (r.x1 - r.x0 + 1).toNat r

/-- The calls LINE makes, in order (R213, R216). -/
def lineCalls (x0 y0 x1 y1 : Int) : List LineCall := (linePlan x0 y0 x1 y1).filterMap fun t => t.2

/-- The actions of one call of LINE. -/
def lineCallActs (d : Device) (p : Params) (color : Half) : LineCall → List Act
  | .pixel x y => pixelActs d p x y color
  | .hline x y len => hlineActs d p x y len color
  | .vline x y len => vlineActs d p x y len color

/-- The actions of one point of LINE's walk. -/
def linePointActs (d : Device) (p : Params) (color : Half) (t : LineRegs × Option LineCall) : List Act :=
  .line t.1 ::
    match t.2 with
    | some c => lineCallActs d p color c
    | none => []

/-- `call LINE` (R210). -/
def lineActs (d : Device) (p : Params) (x0 y0 x1 y1 : Int) (color : Half) : List Act :=
  (linePlan x0 y0 x1 y1).flatMap (linePointActs d p color)

/-- `call RECT` (R220): top, left, bottom, right. -/
def rectActs (d : Device) (p : Params) (x y w h : Int) (color : Half) : List Act :=
  hlineActs d p x y w color ++ vlineActs d p x y h color ++ hlineActs d p x (y + h - 1) w color ++
    vlineActs d p (x + w - 1) y h color

/-- `call FRECT` (R222). -/
def frectActs (d : Device) (p : Params) (x y w h : Int) (color : Half) : List Act :=
  setwinActs d p x y (x + w - 1) (y + h - 1) ++ sfillActs d p color (w * h)

/-- `call FILL` (R224). -/
def fillActs (d : Device) (p : Params) (color : Half) : List Act :=
  frectActs d p 0 0 (zext16 d.width) (zext16 d.height) color

/-- R200. -/
def execPixel (x y color : Half) (s : State) : Host.Outcome State Fault Refusal :=
  withDevice (latchesOf (.pixel x y color)) s fun d t => drive (pixelActs d s.params (sext16 x) (sext16 y) color) t

/-- R202. -/
def execHline (x y len color : Half) (s : State) : Host.Outcome State Fault Refusal :=
  withDevice (latchesOf (.hline x y len color)) s fun d t =>
    drive (hlineActs d s.params (sext16 x) (sext16 y) (sext16 len) color) t

/-- R204. -/
def execVline (x y len color : Half) (s : State) : Host.Outcome State Fault Refusal :=
  withDevice (latchesOf (.vline x y len color)) s fun d t =>
    drive (vlineActs d s.params (sext16 x) (sext16 y) (sext16 len) color) t

/-- R210. -/
def execLine (x0 y0 x1 y1 color : Half) (s : State) : Host.Outcome State Fault Refusal :=
  withDevice (latchesOf (.line x0 y0 x1 y1 color)) s fun d t =>
    drive (lineActs d s.params (sext16 x0) (sext16 y0) (sext16 x1) (sext16 y1) color) t

/-- R220. -/
def execRect (x y w h color : Half) (s : State) : Host.Outcome State Fault Refusal :=
  withDevice (latchesOf (.rect x y w h color)) s fun d t =>
    drive (rectActs d s.params (sext16 x) (sext16 y) (sext16 w) (sext16 h) color) t

/-- R222. -/
def execFrect (x y w h color : Half) (s : State) : Host.Outcome State Fault Refusal :=
  withDevice (latchesOf (.frect x y w h color)) s fun d t =>
    drive (frectActs d s.params (sext16 x) (sext16 y) (sext16 w) (sext16 h) color) t

/-- R224. -/
def execFill (color : Half) (s : State) : Host.Outcome State Fault Refusal :=
  withDevice (latchesOf (.fill color)) s fun d t => drive (fillActs d s.params color) t

end Sys2Proof.Machine
end

