-- ==== Sys2Proof/Machine/Lifecycle.lean ====
section
/-! DEFINITION. The lifecycle requests (45_lifecycle.md): CONFIG, HRESET, SRESET, INIT, SLEEP, INVERT, BLON, BLOFF, ROTATE,
GETROT, GETDIM. -/

namespace Sys2Proof.Machine

/-! The delays of R10, in milliseconds. -/

/-- `T_RST_A`. -/
def tRstA : Nat := 50
/-- `T_RST_B`. -/
def tRstB : Nat := 50
/-- `T_RST_C`. -/
def tRstC : Nat := 150
/-- `T_SWRESET`. -/
def tSwreset : Nat := 150
/-- `T_COLMOD`. -/
def tColmod : Nat := 10
/-- `T_INVON`. -/
def tInvon : Nat := 10
/-- `T_NORON`. -/
def tNoron : Nat := 10
/-- `T_DISPON`. -/
def tDispon : Nat := 100
/-- `T_BL`. -/
def tBl : Nat := 10
/-- `BLACK`. -/
def black : Half := 0

/-! CONFIG. -/

/-- First line of R230: no Device, and no configuration register has a value. -/
def dropDevice (s : State) : State := { s with device := none }

/-- The Device CONFIG constructs (R230, R55): `ROTATION` 0, and `ROT_REQ` 0 on the fixed-rotation variant (R28). -/
def configDevice (f : ConfigFields) (origin : Half × Half) : Device where
  width := f.width
  height := f.height
  xstart := origin.1
  ystart := origin.2
  hasCs := f.csp
  hasBl := f.blp
  rotCap := f.rotc
  rotReq := if f.rotc then f.rot else 0
  rotation := 0

/-- The register writes of a successful CONFIG (R230, R55, R44): the Device, latches of the lines without value, ghosts. -/
def constructDevice (d : Device) (s : State) : State :=
  { s with
    device := some d
    lCs := none
    lDc := none
    lRst := none
    lBl := none
    gLife := some .uninitialized
    gSleep := none
    gDisp := none }

/-- R230: the lines are checked before the geometry (R231 a). -/
def execConfig (f : ConfigFields) (s : State) : Host.Outcome State Fault Refusal :=
  let s1 := dropDevice (acceptRequest (latchesOf (.config f)) s)
  if f.rstp = false ∨ f.dcp = false then raiseStatus .constructLines s1
  else if f.width = 0 ∨ f.height = 0 then raiseStatus .constructGeometry s1
  else
    match configOrigin s.params f with
    | none => raiseStatus .constructGeometry s1
    | some o => succeed .empty (constructDevice (configDevice f o) s1)

/-! The two resets of the panel. -/

/-- The ghost writes at the end of HRESET and of SRESET (R52, R53). -/
def panelResetActs : List Act := [.sleep .asleep, .disp .displayOff]

/-- `call HRESET` (R236). -/
def hresetActs (d : Device) : List Act :=
  [.life .resetting] ++ csActs d .low ++
    [.rst .high, .delay tRstA, .rst .low, .delay tRstB, .rst .high, .delay tRstC] ++ csActs d .high ++ panelResetActs

/-- `call SRESET` (R238): the ghost writes of the frame come at its end (R146). -/
def sresetActs (d : Device) : List Act :=
  [.life .resetting] ++ frameActs d (some cmdSwreset) [] ++ [.delay tSwreset] ++ panelResetActs

/-! Rotation. -/

/-- The Device after ROTATE with a rotation in range (R247): width and height change places when the parity changes. -/
def rotateDevice (d : Device) (n : BitVec 2) : Device :=
  if n.getLsbD 0 = d.rotation.getLsbD 0 then { d with rotation := n }
  else { d with width := d.height, height := d.width, rotation := n }

/-- `call ROTATE(n)` on the rotation-capable variant (R247): out of range, nothing; else the registers are written before
the frame is sent. -/
def rotateActs (d : Device) (p : Params) (n : Int) : List Act :=
  if 0 ≤ n ∧ n ≤ 3 then
    .device (rotateDevice d (BitVec.ofInt 2 n)) :: madctlActs d (madctlByte p (BitVec.ofInt 2 n))
  else []

/-! INIT. -/

/-- Step 10 of R240. -/
def initRotateActs (d : Device) (p : Params) : List Act :=
  if d.rotCap ∧ d.rotReq ≠ 0 then rotateActs d p (sext16 d.rotReq) else []

/-- `call INIT` (R240), a line per step of the document. -/
def initActs (d : Device) (p : Params) : List Act :=
  hresetActs d ++
  sresetActs d ++
  (.life .initializing :: slpoutActs d) ++
  (colmodActs d p.colmodData ++ [.delay tColmod]) ++
  madctlActs d p.madctlInit ++
  (invonActs d ++ [.delay tInvon]) ++
  (noronActs d ++ [.delay tNoron]) ++
  frectActs d p 0 0 (zext16 d.width) (zext16 d.height) black ++
  (disponActs d ++ [.delay tDispon]) ++
  initRotateActs d p ++
  [.life .ready]

/-! The rest. -/

/-- `call BLON` or `call BLOFF` (R244, R245): an absent line skips the write, not the delay (R246). -/
def backlightActs (d : Device) (l : Level) : List Act := (if d.hasBl then [.bl l] else []) ++ [.delay tBl]

/-- R236. -/
def execHreset (s : State) : Host.Outcome State Fault Refusal :=
  withDevice (latchesOf .hreset) s fun d t => drive (hresetActs d) t

/-- R238. -/
def execSreset (s : State) : Host.Outcome State Fault Refusal :=
  withDevice (latchesOf .sreset) s fun d t => drive (sresetActs d) t

/-- R240. -/
def execInit (s : State) : Host.Outcome State Fault Refusal :=
  withDevice (latchesOf .init) s fun d t => drive (initActs d s.params) t

/-- R242. -/
def execSleep (en : Bool) (s : State) : Host.Outcome State Fault Refusal :=
  withDevice (latchesOf (.sleep en)) s fun d t => drive (if en then slpinActs d else slpoutActs d) t

/-- R243. -/
def execInvert (en : Bool) (s : State) : Host.Outcome State Fault Refusal :=
  withDevice (latchesOf (.invert en)) s fun d t => drive (if en then invonActs d else invoffActs d) t

/-- R244. -/
def execBlon (s : State) : Host.Outcome State Fault Refusal :=
  withDevice (latchesOf .blon) s fun d t => drive (backlightActs d .high) t

/-- R245. -/
def execBloff (s : State) : Host.Outcome State Fault Refusal :=
  withDevice (latchesOf .bloff) s fun d t => drive (backlightActs d .low) t

/-- R247. -/
def execRotate (n : Half) (s : State) : Host.Outcome State Fault Refusal :=
  withDevice (latchesOf (.rotate n)) s fun d t =>
    whenRotCapable d t fun u => drive (rotateActs d s.params (sext16 n)) u

/-- R249. -/
def execGetrot (s : State) : Host.Outcome State Fault Refusal :=
  withDevice (latchesOf .getrot) s fun d t => whenRotCapable d t fun u => succeed (.rotation d.rotation) u

/-- R250. -/
def execGetdim (s : State) : Host.Outcome State Fault Refusal :=
  withDevice (latchesOf .getdim) s fun d t => succeed (.dims d.width d.height) t

end Sys2Proof.Machine
end

