-- ==== Sys2Proof/Machine/Dispatch.lean ====
section
/-! DEFINITION. The dispatcher: one arm per constructor of Instr, each one call of its meaning. -/

namespace Sys2Proof.Machine

def exec (i : Instr) (s : State) : Host.Outcome State Fault Refusal :=
  match i with
  | .config f => Sys2Proof.Machine.execConfig f s
  | .pack565 r g b => Sys2Proof.Machine.execPack565 r g b s
  | .expbmp width fg bg olen src => Sys2Proof.Machine.execExpbmp width fg bg olen src s
  | .send cmd data => Sys2Proof.Machine.execSend cmd data s
  | .setwin x0 y0 x1 y1 => Sys2Proof.Machine.execSetwin x0 y0 x1 y1 s
  | .sfill color count => Sys2Proof.Machine.execSfill color count s
  | .blit x y w h buf => Sys2Proof.Machine.execBlit x y w h buf s
  | .pixel x y color => Sys2Proof.Machine.execPixel x y color s
  | .hline x y len color => Sys2Proof.Machine.execHline x y len color s
  | .vline x y len color => Sys2Proof.Machine.execVline x y len color s
  | .line x0 y0 x1 y1 color => Sys2Proof.Machine.execLine x0 y0 x1 y1 color s
  | .rect x y w h color => Sys2Proof.Machine.execRect x y w h color s
  | .frect x y w h color => Sys2Proof.Machine.execFrect x y w h color s
  | .fill color => Sys2Proof.Machine.execFill color s
  | .hreset => Sys2Proof.Machine.execHreset s
  | .sreset => Sys2Proof.Machine.execSreset s
  | .init => Sys2Proof.Machine.execInit s
  | .sleep en => Sys2Proof.Machine.execSleep en s
  | .invert en => Sys2Proof.Machine.execInvert en s
  | .blon => Sys2Proof.Machine.execBlon s
  | .bloff => Sys2Proof.Machine.execBloff s
  | .rotate n => Sys2Proof.Machine.execRotate n s
  | .getrot => Sys2Proof.Machine.execGetrot s
  | .getdim => Sys2Proof.Machine.execGetdim s
  | .swreset => Sys2Proof.Machine.execSwreset s
  | .slpin => Sys2Proof.Machine.execSlpin s
  | .slpout => Sys2Proof.Machine.execSlpout s
  | .noron => Sys2Proof.Machine.execNoron s
  | .invoff => Sys2Proof.Machine.execInvoff s
  | .invon => Sys2Proof.Machine.execInvon s
  | .dispon => Sys2Proof.Machine.execDispon s
  | .caset xs xe => Sys2Proof.Machine.execCaset xs xe s
  | .raset ys ye => Sys2Proof.Machine.execRaset ys ye s
  | .ramwr => Sys2Proof.Machine.execRamwr s
  | .madctl v => Sys2Proof.Machine.execMadctl v s
  | .colmod v => Sys2Proof.Machine.execColmod v s

end Sys2Proof.Machine
end

