-- ==== Sys2Proof/Machine/Step.lean ====
section
/-! DEFINITION. One step: the request the host presents next is taken, decoded and executed to completion (R31, R77).
While BUSY is 1 the port accepts nothing (R30, R300), and with no request left the block waits, idle (R293). -/

namespace Sys2Proof.Machine

def step (s : State) : Host.Outcome State Fault Refusal :=
  if s.busy then .next s
  else
    match presented s with
    | none => .next s
    | some b =>
      match decode b with
      | .instr i => exec i s
      | .rejected _ => illegalRequest s

/-- The state with an instruction's word at the place of the next request, and the port ready to accept it. -/
def State.withFetchWord (s : State) (nbits w : Nat) : State :=
  { s with busy := false, requests := placeRequest (tableRequest nbits w) s }

end Sys2Proof.Machine
end

