-- ==== Sys2Proof/Safety.lean ====
section
/-! DEFINITION. The terms claims use: what the rules say of traces, written as event sequences without the machine's
actions or its bus; what completing a request leaves; the invariant of the state between requests. -/

namespace Sys2Proof

open Machine

/-! Reading a trace. -/

/-- The byte strings transferred, in order. -/
def transfersOf (evs : List Event) : List Bytes :=
  evs.filterMap fun e =>
    match e with
    | .xfer b => some b
    | _ => none

/-- The number of transfers. -/
def xferCount (evs : List Event) : Nat := (transfersOf evs).length

/-- The events but for the writes of chip-select and of the data/command line: transfers, delays, reset, backlight. -/
def offFrame (evs : List Event) : List Event :=
  evs.filter fun e =>
    match e with
    | .cs _ => false
    | .dc _ => false
    | _ => true

/-- The level last written to chip-select by the events, if they write it. -/
def lastCs (evs : List Event) : Option Level :=
  (evs.filterMap fun e => match e with | .cs l => some l | _ => none).getLast?

/-- The mode last written to the data/command line. -/
def lastDc (evs : List Event) : Option DcMode :=
  (evs.filterMap fun e => match e with | .dc m => some m | _ => none).getLast?

/-- The level last written to the reset line. -/
def lastRst (evs : List Event) : Option Level :=
  (evs.filterMap fun e => match e with | .rst l => some l | _ => none).getLast?

/-- The level last written to the backlight line. -/
def lastBl (evs : List Event) : Option Level :=
  (evs.filterMap fun e => match e with | .bl l => some l | _ => none).getLast?

/-- The command bytes on the wire: the transfers made directly after the line was set to command mode. -/
def commandBytes : List Event → List Bytes
  | .dc .cmd :: .xfer b :: rest => b :: commandBytes rest
  | _ :: rest => commandBytes rest
  | [] => []

/-- The next `n` transfers of the run succeed (R266). -/
def BusOk (s : State) (n : Nat) : Prop := ∀ k, k < n → outcomeAt s (s.xfers + k) = .ok

/-! The events the rules give, from their pseudocode. -/

/-- `be16` of R14 on an integer. -/
def be16Z (v : Int) : Bytes :=
  [BitVec.ofNat 8 ((v % 65536).toNat >>> 8), BitVec.ofNat 8 ((v % 65536).toNat &&& 255)]

/-- A line write that is skipped when the line is absent (R24, R25). -/
def ifLine (present : Bool) (e : Event) : List Event := if present then [e] else []

/-- The command part of a frame, if it has a command byte (R90). -/
def commandEvents : Option Byte → List Event
  | some c => [.dc .cmd, .xfer [c]]
  | none => []

/-- The frame of SEND (R90, R140). -/
def sendEvents (hasCs : Bool) (cmd : Option Byte) (data : Bytes) : List Event :=
  ifLine hasCs (.cs .low) ++ commandEvents cmd ++
    (if data = [] then [] else [.dc .data, .xfer data]) ++ ifLine hasCs (.cs .high)

/-- A window is accepted by SETWIN (R170, R171). -/
abbrev WindowOk (d : Device) (p : Params) (x0 y0 x1 y1 : Int) : Prop :=
  x0 ≤ x1 ∧ x1 < d.width.toNat ∧ y0 ≤ y1 ∧ y1 < d.height.toNat ∧ (p.negCoordPolicy = .reject → 0 ≤ x0 ∧ 0 ≤ y0)

/-- The three frames of an accepted window (R157, R158, R159, R173). -/
def windowEvents (d : Device) (x0 y0 x1 y1 : Int) : List Event :=
  sendEvents d.hasCs (some 0x2A) (be16Z (x0 + d.xstart.toNat) ++ be16Z (x1 + d.xstart.toNat)) ++
    sendEvents d.hasCs (some 0x2B) (be16Z (y0 + d.ystart.toNat) ++ be16Z (y1 + d.ystart.toNat)) ++
    sendEvents d.hasCs (some 0x2C) []

/-- What a call of SETWIN emits (R170, R172). -/
def setwinEvents (d : Device) (p : Params) (x0 y0 x1 y1 : Int) : List Event :=
  if WindowOk d p x0 y0 x1 y1 then windowEvents d x0 y0 x1 y1 else []

/-- The transfers a stream of bytes is cut into (R180): chunk `k` is bytes `256 k` up to `256 k + 256` or the end. -/
def chunksOf (bytes : Bytes) : List Bytes :=
  (List.range ((bytes.length + 255) / 256)).map fun k => (bytes.drop (256 * k)).take 256

/-- What STREAM emits (R181), by the value of `STREAM_FRAMING`. -/
def streamEvents (d : Device) (p : Params) (bytes : Bytes) : List Event :=
  match p.streamFraming with
  | .perStream =>
    ifLine d.hasCs (.cs .low) ++ (if bytes = [] then [] else .dc .data :: (chunksOf bytes).map .xfer) ++
      ifLine d.hasCs (.cs .high)
  | .perChunk => (chunksOf bytes).flatMap fun c => sendEvents d.hasCs none c

/-- The pair of a colour's bytes repeated `n` times (R183, R184). -/
def pixelBytes (color : Half) (n : Nat) : Bytes := (List.replicate n (be16Z color.toNat)).flatten

/-- What SFILL emits (R183, R185). -/
def sfillEvents (d : Device) (p : Params) (color : Half) (count : Int) : List Event :=
  streamEvents d p (pixelBytes color count.toNat)

/-- What PIXEL emits (R200). -/
def pixelEvents (d : Device) (p : Params) (x y : Int) (color : Half) : List Event :=
  setwinEvents d p x y x y ++ streamEvents d p (be16Z color.toNat)

/-- What HLINE emits (R202). -/
def hlineEvents (d : Device) (p : Params) (x y len : Int) (color : Half) : List Event :=
  setwinEvents d p x y (x + len - 1) y ++ sfillEvents d p color len

/-- What VLINE emits (R204). -/
def vlineEvents (d : Device) (p : Params) (x y len : Int) (color : Half) : List Event :=
  setwinEvents d p x y x (y + len - 1) ++ sfillEvents d p color len

/-- What FRECT emits (R222). -/
def frectEvents (d : Device) (p : Params) (x y w h : Int) (color : Half) : List Event :=
  setwinEvents d p x y (x + w - 1) (y + h - 1) ++ sfillEvents d p color (w * h)

/-- What one call of LINE emits (R210). -/
def lineCallEvents (d : Device) (p : Params) (color : Half) : LineCall → List Event
  | .pixel x y => pixelEvents d p x y color
  | .hline x y len => hlineEvents d p x y len color
  | .vline x y len => vlineEvents d p x y len color

/-- The pixels one call of LINE covers, in order (R200, R202, R204). -/
def callPixels : LineCall → List (Int × Int)
  | .pixel x y => [(x, y)]
  | .hline x y len => (List.range len.toNat).map fun (k : Nat) => (x + k, y)
  | .vline x y len => (List.range len.toNat).map fun (k : Nat) => (x, y + k)

/-- The length of the run a call of LINE covers. -/
def callLength : LineCall → Int
  | .pixel _ _ => 1
  | .hline _ _ len => len
  | .vline _ _ len => len

/-- The pixels of the classical integer Bresenham line from the low end of the driving axis, with the error term started
at half the driving distance (R213 c): at driving offset `k` the cross offset is the least `c` with
`dx / 2 - k * dy + c * dx ≥ 0`. -/
def bresenham (a b c d : Int) : List (Int × Int) :=
  let dx := c - a
  let dy : Int := (d - b).natAbs
  (List.range (dx.toNat + 1)).map fun (k : Nat) =>
    (a + k, b + (if b < d then 1 else -1) * ((k * dy + dx - 1 - dx / 2) / dx))

/-- What HRESET emits (R236). -/
def hresetEvents (hasCs : Bool) : List Event :=
  ifLine hasCs (.cs .low) ++
    [.rst .high, .delay 50, .rst .low, .delay 50, .rst .high, .delay 150] ++ ifLine hasCs (.cs .high)

/-- The addressing-mode byte of a rotation (R97). -/
def rotationByte (p : Params) (n : Int) : Byte :=
  (if n = 0 then p.madctlRot0 else if n = 1 then p.madctlRot1 else if n = 2 then p.madctlRot2 else p.madctlRot3) |||
    p.madctlRgb

/-- What ROTATE emits for a rotation in range (R247). -/
def rotateEvents (d : Device) (p : Params) (n : Int) : List Event :=
  sendEvents d.hasCs (some 0x36) [rotationByte p n]

/-- The Device after ROTATE to `n`, for `n` in 0 to 3 (R247, R307). -/
def rotated (d : Device) (n : Int) : Device :=
  if n % 2 = (d.rotation.toNat : Int) % 2 then { d with rotation := BitVec.ofInt 2 n }
  else { d with width := d.height, height := d.width, rotation := BitVec.ofInt 2 n }

/-- INIT applies the rotation asked for at construction (R240 step 10, R241 d). -/
abbrev InitRotates (d : Device) : Prop := d.rotCap = true ∧ 0 < d.rotReq.toInt ∧ d.rotReq.toInt ≤ 3

/-- What INIT emits (R240). -/
def initEvents (d : Device) (p : Params) : List Event :=
  hresetEvents d.hasCs ++
  (sendEvents d.hasCs (some 0x01) [] ++ [.delay 150]) ++
  sendEvents d.hasCs (some 0x11) [] ++
  (sendEvents d.hasCs (some 0x3A) [p.colmodData] ++ [.delay 10]) ++
  sendEvents d.hasCs (some 0x36) [p.madctlInit] ++
  (sendEvents d.hasCs (some 0x21) [] ++ [.delay 10]) ++
  (sendEvents d.hasCs (some 0x13) [] ++ [.delay 10]) ++
  frectEvents d p 0 0 d.width.toNat d.height.toNat 0 ++
  (sendEvents d.hasCs (some 0x29) [] ++ [.delay 100]) ++
  (if InitRotates d then rotateEvents d p d.rotReq.toInt else [])

/-! EXPBMP's output by rows. -/

/-- The bits of a byte, most significant first (R67). -/
def bitsOf (b : Byte) : List Bool := (List.range 8).map fun k => b.getLsbD (7 - k)

/-- Row `r` of a bitmap whose rows are `width` bits in whole bytes: the last row may be short (R132). -/
def bitmapRow (width : Nat) (src : Bytes) (r : Nat) : List Bool :=
  ((((src.drop (r * ((width + 7) / 8))).take ((width + 7) / 8)).flatMap bitsOf)).take width

/-- The whole expansion (R132): each bit of each row as the two bytes of `fg` or `bg`. -/
def expandedRows (width : Nat) (fg bg : Half) (src : Bytes) : Bytes :=
  (List.range ((src.length + (width + 7) / 8 - 1) / ((width + 7) / 8))).flatMap fun r =>
    (bitmapRow width src r).flatMap fun bit => be16Z (if bit then fg.toNat else bg.toNat)

/-- `need` of R132. -/
def expansionNeed (width slen : Nat) : Nat :=
  2 * (slen / ((width + 7) / 8) * width + 8 * (slen % ((width + 7) / 8)))

/-! What a completed request leaves. -/

/-- The state `s` with one completion record more and nothing else changed but the request pointer: what a request that
does nothing leaves (R262, R263, R264, R270). Transient state has no value (R32). -/
def recorded (s : State) (st : Status) (v : Value) : State :=
  { s with
    busy := false
    latches := none
    stage := none
    stream := none
    line := none
    records := s.records ++ [⟨st, v⟩]
    rp := s.rp + 1 }

/-- `t` is `s` after a request that emitted exactly `evs` and produced the record `(st, v)`: the trace, the latches of the
lines, the counters and the transient state; the run's parameters stay. -/
def Completed (s t : State) (evs : List Event) (st : Status) (v : Value) : Prop :=
  t.trace = s.trace ++ evs ∧ t.records = s.records ++ [⟨st, v⟩] ∧ t.rp = s.rp + 1 ∧ t.xfers = s.xfers + xferCount evs ∧
    t.lCs = (lastCs evs).or s.lCs ∧ t.lDc = (lastDc evs).or s.lDc ∧ t.lRst = (lastRst evs).or s.lRst ∧
    t.lBl = (lastBl evs).or s.lBl ∧
    t.busy = false ∧ t.latches = none ∧ t.stage = none ∧ t.stream = none ∧ t.line = none ∧
    t.requests = s.requests ∧ t.params = s.params ∧ t.busScript = s.busScript

/-- The configuration registers and FAULT are as before. -/
def KeepsRegisters (s t : State) : Prop := t.device = s.device ∧ t.fault = s.fault

/-- The ghost variables are as before. -/
def KeepsGhosts (s t : State) : Prop := t.gLife = s.gLife ∧ t.gSleep = s.gSleep ∧ t.gDisp = s.gDisp

/-- `exec i s` ends with status OK, having emitted `evs`, registers and ghosts kept: a drawing request. -/
def Draws (i : Instr) (s : State) (evs : List Event) : Prop :=
  ∃ t, exec i s = .next t ∧ Completed s t evs .ok .empty ∧ KeepsRegisters s t ∧ KeepsGhosts s t

/-- `exec i s` ends with status OK, having emitted `evs`, registers kept: a frame, after which the ghosts of the panel are
as given, or as before where nothing is given (R146). -/
def Sends (i : Instr) (s : State) (evs : List Event) (sleep : Option PanelSleep) (disp : Option PanelDisplay) : Prop :=
  ∃ t, exec i s = .next t ∧ Completed s t evs .ok .empty ∧ KeepsRegisters s t ∧
    t.gLife = s.gLife ∧ t.gSleep = sleep.or s.gSleep ∧ t.gDisp = disp.or s.gDisp

/-- `t` is `s` after a request stopped by a failing transfer, the last of the events it emitted (R266, R277). -/
def Aborted (s t : State) (evs : List Event) : Prop :=
  Completed s t evs .busError .empty ∧ t.fault = true

/-- What a frame with this command byte does to `G_SLEEP` (R146; notes/assumptions/17.md). -/
def ghostSleep (code : Byte) : Option PanelSleep :=
  if code = 0x11 then some .awake else if code = 0x10 ∨ code = 0x01 then some .asleep else none

/-- What a frame with this command byte does to `G_DISP` (R146; notes/assumptions/17.md). -/
def ghostDisplay (code : Byte) : Option PanelDisplay :=
  if code = 0x29 then some .displayOn else if code = 0x01 then some .displayOff else none

/-- The twelve wire frames (R150 to R161): command byte and data bytes of each. -/
def wireFrame : Instr → Option (Byte × Bytes)
  | .swreset => some (0x01, [])
  | .slpin => some (0x10, [])
  | .slpout => some (0x11, [])
  | .noron => some (0x13, [])
  | .invoff => some (0x20, [])
  | .invon => some (0x21, [])
  | .dispon => some (0x29, [])
  | .caset xs xe => some (0x2A, be16Z xs.toNat ++ be16Z xe.toNat)
  | .raset ys ye => some (0x2B, be16Z ys.toNat ++ be16Z ye.toNat)
  | .ramwr => some (0x2C, [])
  | .madctl v => some (0x36, [v])
  | .colmod v => some (0x3A, [v])
  | _ => none

/-- The instruction works on the panel's reset or its bring-up: the three that write `G_LIFE` but for CONFIG (R51). -/
def resetsPanel : Instr → Bool
  | .hreset => true
  | .sreset => true
  | .init => true
  | _ => false

/-- The command byte of an instruction that is one frame with a command byte (R140, R150 to R161, R242, R243). -/
def frameCommand : Instr → Option Byte
  | .send cmd _ => cmd
  | .sleep en => some (if en then 0x10 else 0x11)
  | .invert en => some (if en then 0x21 else 0x20)
  | i => (wireFrame i).map fun f => f.1

/-- What the ghost variables are after an instruction that does not reset the panel, on every path: as before, but for the
frame of a command byte that R146 names, sent whole. -/
def GhostsFollow (i : Instr) (s t : State) (r : Record) : Prop :=
  if r.status = .ok then
    t.gLife = s.gLife ∧ t.gSleep = ((frameCommand i).bind ghostSleep).or s.gSleep ∧
      t.gDisp = ((frameCommand i).bind ghostDisplay).or s.gDisp
  else KeepsGhosts s t

/-- The request opcodes of R110. -/
def requestOpcodes : List Byte :=
  [0x01, 0x10, 0x11, 0x20, 0x30, 0x40, 0x41, 0x50, 0x51, 0x52, 0x53, 0x54, 0x55, 0x56, 0x60, 0x61, 0x62, 0x63, 0x64,
    0x65, 0x66, 0x67, 0x68, 0x69]

/-- The command codes of R91. -/
def commandCodes : List Byte := [0x01, 0x10, 0x11, 0x13, 0x20, 0x21, 0x29, 0x2A, 0x2B, 0x2C, 0x36, 0x3A]

/-- The value of a big-endian field (R111). -/
def beValue (b : Bytes) : Nat := b.foldl (fun n x => 256 * n + x.toNat) 0

/-- `(xs, ys)` is the origin of the first preset row of the size (R232). -/
def PresetIs (p : Params) (width height xs ys : Half) : Prop :=
  ∃ before after, p.presets = before ++ ⟨width, height, xs, ys⟩ :: after ∧
    ∀ r ∈ before, ¬(r.width = width ∧ r.height = height)

/-- The request needs a Device (R263): every one but CONFIG, PACK565 and EXPBMP. -/
def needsDevice : Instr → Bool
  | .config _ => false
  | .pack565 _ _ _ => false
  | .expbmp _ _ _ _ _ => false
  | _ => true

/-! The invariant of the state between requests. -/

/-- What the Device's registers satisfy (R22, R28, R55, R27), and the latches of absent lines (R44). -/
def DeviceInv (s : State) (d : Device) : Prop :=
  0 < d.width.toNat ∧ 0 < d.height.toNat ∧ (d.rotCap = false → d.rotReq = 0 ∧ d.rotation = 0) ∧
    (d.hasCs = false → s.lCs = none) ∧ (d.hasBl = false → s.lBl = none)

/-- A latch with a value holds the level its line was last driven to (R44). -/
def LatchInv (s : State) : Prop :=
  (∀ l, s.lCs = some l → lastCs s.trace = some l) ∧ (∀ m, s.lDc = some m → lastDc s.trace = some m) ∧
    (∀ l, s.lRst = some l → lastRst s.trace = some l) ∧ (∀ l, s.lBl = some l → lastBl s.trace = some l)

/-- No request is in progress and nothing transient has a value (R32, R38); one record per request (R31, R37); the
transfer counter is the number of transfers made (R266); no transfer is empty (R40); FAULT records bus failures (R30);
a value goes with status OK only (R37). -/
def Machine.State.Inv (s : State) : Prop :=
  s.busy = false ∧ s.latches = none ∧ s.stage = none ∧ s.stream = none ∧ s.line = none ∧
    s.records.length = s.rp ∧ s.xfers = xferCount s.trace ∧ (∀ b ∈ transfersOf s.trace, b ≠ []) ∧
    (s.fault = true ↔ ∃ r ∈ s.records, r.status = .busError) ∧
    (∀ r ∈ s.records, r.status ≠ .ok → r.value = .empty) ∧
    (∀ d, s.device = some d → DeviceInv s d) ∧ LatchInv s

end Sys2Proof
end

