-- ==== Sys2Proof/Certificates/Slice0/Obligations.lean ====
section
/-! DEFINITION. The statements for the provers, from the numbered rules of spec/. Where a statement rests on a decision of
the spec (a rule marked D<n> there) or on an entry of the assumption log, its docstring says so. Statements about one
request say that it COMPLETES: their conclusion is that exec answers a next state, for every state and operand that meet
conditions on the state and the operands alone. `BusOk s n` is such a condition: the next `n` transfers succeed. -/

open Sys2Proof Sys2Proof.Machine

/-! Encodings. -/

/-- Words written out by hand in 95_test_vectors.md ("Descriptor encodings, one per request"; F4, K11) and the payloads of
30_encoding.md R92, R97 decode to the instruction they stand for. -/
def Obligations.SpecWords : Prop :=
  decode [0x01, 0x2F, 0x00, 0x87, 0x00, 0xF0, 0x00, 0x01, 0x00, 0x00, 0x00, 0x00] =
      .instr (.config ⟨true, true, true, true, false, true, 135, 240, 1, 0, 0⟩) ∧
    decode [0x10, 0x12, 0x34, 0x56] = .instr (.pack565 0x12 0x34 0x56) ∧
    decode [0x20, 0x01, 0x2A, 0x00, 0x00, 0x00, 0x04, 0x00, 0x00, 0x00, 0xEF] =
      .instr (.send (some 0x2A) [0x00, 0x00, 0x00, 0xEF]) ∧
    decode [0x30, 0x00, 0x00, 0x00, 0x00, 0x00, 0xEF, 0x00, 0xEF] = .instr (.setwin 0 0 239 239) ∧
    decode [0x40, 0x07, 0xE0, 0x00, 0x00, 0x01, 0x2C] = .instr (.sfill 0x07E0 300) ∧
    decode [0x53, 0x00, 0x00, 0x00, 0x00, 0x00, 0x05, 0x00, 0x02, 0xFF, 0xFF] = .instr (.line 0 0 5 2 0xFFFF) ∧
    decode [0x67, 0xFF, 0xFF] = .instr (.rotate (-1)) ∧
    decodeFrame [0x2A, 0x00, 0x34, 0x00, 0xBA] = .instr (.caset 52 186) ∧
    decodeFrame [0x36, 0x60] = .instr (.madctl 0x60)

/-- 30_encoding.md R115: encode and decode are inverse on the legal requests. Every well-formed request decodes from its
descriptor with every operand as it was, and a descriptor that decodes is the one of a well-formed request. -/
def Obligations.DescriptorRoundTrip : Prop :=
  (∀ i : Instr, i.isRequest = true → i.WellFormed → decode (encode i) = .instr i) ∧
    ∀ (b : Bytes) (i : Instr), decode b = .instr i → i.isRequest = true ∧ i.WellFormed ∧ encode i = b

/-- 30_encoding.md R91 to R97: the twelve wire frames, command byte and data bytes, both ways. -/
def Obligations.FrameRoundTrip : Prop :=
  (∀ i : Instr, i.isRequest = false → decodeFrame (encode i) = .instr i ∧ wireFrame i = (encode i).head?.map (·, (encode i).tail)) ∧
    ∀ (b : Bytes) (i : Instr), decodeFrame b = .instr i → i.isRequest = false ∧ encode i = b

/-- 30_encoding.md R112: every opcode outside the table of R110 is reserved, and the empty string has no opcode. -/
def Obligations.ReservedOpcodes : Prop :=
  decode [] = .rejected .noOpcode ∧
    ∀ (op : Byte) (rest : Bytes), op ∉ requestOpcodes → decode (op :: rest) = .rejected .reservedOpcode

/-- 30_encoding.md R114: a descriptor shorter or longer than its opcode, and in a buffer format its length field, say is
illegal. The length field is the last four of the format's fixed bytes (R100). -/
def Obligations.DescriptorLength : Prop :=
  ∀ (op : Byte) (rest : Bytes) (f : Format), formatOf op = some f →
    (f ≠ .sd ∧ f ≠ .bl ∧ f ≠ .eb ∧ rest.length + 1 ≠ f.fixedLength) ∨
        ((f = .sd ∨ f = .bl ∨ f = .eb) ∧
          (rest.length + 1 < f.fixedLength ∨
            rest.length + 1 ≠ f.fixedLength + beValue ((rest.drop (f.fixedLength - 5)).take 4))) →
      decode (op :: rest) = .rejected .badLength

/-- 30_encoding.md R113: the reserved field values of formats E, SD and CF make a descriptor illegal. -/
def Obligations.ReservedFields : Prop :=
  (∀ en : Byte, en ≠ 0 → en ≠ 1 →
      decode [0x63, en] = .rejected .reservedField ∧ decode [0x64, en] = .rejected .reservedField) ∧
    (∀ (flags cmd l3 l2 l1 l0 : Byte) (data : Bytes), data.length = beValue [l3, l2, l1, l0] →
      (1 < flags.toNat ∨ (flags = 0 ∧ cmd ≠ 0)) →
      decode (0x20 :: flags :: cmd :: l3 :: l2 :: l1 :: l0 :: data) = .rejected .reservedField) ∧
    ∀ flags w1 w0 h1 h0 r1 r0 x1 x0 y1 y0 : Byte,
      (64 ≤ flags.toNat ∨ (flags.getLsbD 5 = false ∧ (r1 ≠ 0 ∨ r0 ≠ 0)) ∨
        (flags.getLsbD 4 = false ∧ (x1 ≠ 0 ∨ x0 ≠ 0 ∨ y1 ≠ 0 ∨ y0 ≠ 0))) →
      decode [0x01, flags, w1, w0, h1, h0, r1, r0, x1, x0, y1, y0] = .rejected .reservedField

/-- 30_encoding.md R111: fields are assembled big-endian, signed ones in two's complement. -/
def Obligations.OperandAssembly : Prop :=
  (∀ a b : Byte, (half a b).toNat = beValue [a, b] ∧
      sext16 (half a b) = if beValue [a, b] < 32768 then (beValue [a, b] : Int) else (beValue [a, b] : Int) - 65536) ∧
    ∀ a b c d : Byte, (quad a b c d).toNat = beValue [a, b, c, d] ∧
      sext32 (quad a b c d) =
        if beValue [a, b, c, d] < 2147483648 then (beValue [a, b, c, d] : Int)
        else (beValue [a, b, c, d] : Int) - 4294967296

/-! The step. -/

/-- A step runs the request it decodes (10_state.md R31, 20_memory.md R77): with the port free and a descriptor presented
that decodes to `i`, the step is exec of `i` at that very state. -/
def Obligations.StepRunsDecoded : Prop :=
  ∀ (s : State) (b : Bytes) (i : Instr), s.busy = false → s.requests[s.rp]? = some b → decode b = .instr i →
    step s = exec i s

/-- 60_exceptions.md R262 (decision D27): a rejected descriptor completes with ILLEGAL_REQUEST and changes nothing but the
record and the request pointer. -/
def Obligations.StepIllegal : Prop :=
  ∀ (s : State) (b : Bytes) (r : Reject), s.busy = false → s.requests[s.rp]? = some b → decode b = .rejected r →
    step s = .next (recorded s .illegalRequest .empty)

/-- 10_state.md R30, 70_reset_and_hazards.md R293, R300 (decisions D3, D34; notes/assumptions/6.md): while BUSY is 1 the
port accepts nothing, and with no request left the block waits. -/
def Obligations.StepWaits : Prop :=
  (∀ s : State, s.busy = true → step s = .next s) ∧
    ∀ s : State, s.busy = false → s.requests.length ≤ s.rp → step s = .next s

/-- 10_state.md R31, R32, R37: a step with a request presented always completes it, with exactly one record, whatever the
descriptor and whatever the bus reports, and leaves no transient state. -/
def Obligations.StepCompletesOne : Prop :=
  ∀ s : State, s.busy = false → s.rp < s.requests.length →
    ∃ t r, step s = .next t ∧ t.rp = s.rp + 1 ∧ t.records = s.records ++ [r] ∧ (r.status ≠ .ok → r.value = .empty) ∧
      t.busy = false ∧ t.latches = none ∧ t.stage = none ∧ t.stream = none ∧ t.line = none ∧
      t.requests = s.requests ∧ t.params = s.params ∧ t.busScript = s.busScript

/-- 60_exceptions.md R263 (decision D23): without a Device every request but CONFIG, PACK565 and EXPBMP completes with
NOT_CONSTRUCTED and nothing else changes. That the twelve wire frames, which are no requests, need a Device too is the
model's choice (notes/assumptions/5.md). -/
def Obligations.NotConstructed : Prop :=
  ∀ (i : Instr) (s : State), needsDevice i = true → s.device = none →
    exec i s = .next (recorded s .notConstructed .empty)

/-! Colour codec. -/

/-- 40_color_codec.md R130: PACK565 is total; it returns the colour whose three fields are the high bits of the channels,
emits nothing and changes no register, with or without a Device. -/
def Obligations.PackColor : Prop :=
  ∀ (s : State) (r g b : Byte), decode [0x10, r, g, b] = .instr (.pack565 r g b) ∧
    ∃ t c, exec (.pack565 r g b) s = .next t ∧ Completed s t [] .ok (.color c) ∧ KeepsRegisters s t ∧ KeepsGhosts s t ∧
      c.extractLsb' 11 5 = r.extractLsb' 3 5 ∧ c.extractLsb' 5 6 = g.extractLsb' 2 6 ∧
      c.extractLsb' 0 5 = b.extractLsb' 3 5

/-- 40_color_codec.md R132: with a width of at least 1 and room for `need` bytes, EXPBMP returns the bitmap expanded row by
row, exactly `need` bytes, and changes nothing else. -/
def Obligations.ExpandBitmap : Prop :=
  ∀ (s : State) (width fg bg : Half) (olen : Quad) (src : Bytes), 1 ≤ width.toInt →
    expansionNeed width.toInt.toNat src.length ≤ olen.toNat →
    (expandedRows width.toInt.toNat fg bg src).length = expansionNeed width.toInt.toNat src.length ∧
      exec (.expbmp width fg bg olen src) s =
        .next (recorded s .ok (.expanded (BitVec.ofNat 32 (expansionNeed width.toInt.toNat src.length))
          (expandedRows width.toInt.toNat fg bg src)))

/-- 40_color_codec.md R132, 60_exceptions.md R269 (decision D26): a width below 1 or too small an output buffer is
BAD_OPERAND, and nothing changes. -/
def Obligations.ExpandBadOperand : Prop :=
  ∀ (s : State) (width fg bg : Half) (olen : Quad) (src : Bytes),
    (width.toInt < 1 ∨ (1 ≤ width.toInt ∧ olen.toNat < expansionNeed width.toInt.toNat src.length)) →
    exec (.expbmp width fg bg olen src) s = .next (recorded s .badOperand .empty)

/-! Construction. -/

/-- 45_lifecycle.md R230, 10_state.md R55 (decisions D18, D20; notes/assumptions/7.md for the latches): a CONFIG with both
mandatory lines, a positive size and an origin, explicit or of a preset, constructs exactly this Device. -/
def Obligations.ConfigConstructs : Prop :=
  ∀ (s : State) (f : ConfigFields) (xs ys : Half), f.rstp = true → f.dcp = true → f.width ≠ 0 → f.height ≠ 0 →
    (if f.orgp = true then xs = f.xorg ∧ ys = f.yorg else PresetIs s.params f.width f.height xs ys) →
    exec (.config f) s =
      .next { recorded s .ok .empty with
        device := some ⟨f.width, f.height, xs, ys, f.csp, f.blp, f.rotc, if f.rotc then f.rot else 0, 0⟩
        lCs := none
        lDc := none
        lRst := none
        lBl := none
        gLife := some .uninitialized
        gSleep := none
        gDisp := none }

/-- 45_lifecycle.md R230, R231 a, 60_exceptions.md R265, R276 (decision D20): a missing reset or data/command line fails
first, whatever the geometry, and leaves no Device. That the line latches and the ghosts are kept is the model's reading
(notes/assumptions/7.md, DEDUCED, unsafe). -/
def Obligations.ConfigLines : Prop :=
  ∀ (s : State) (f : ConfigFields), (f.rstp = false ∨ f.dcp = false) →
    exec (.config f) s = .next { recorded s .constructLines .empty with device := none }

/-- 45_lifecycle.md R230, R231, 60_exceptions.md R265 (decision D20): a zero size, or a size that is no preset without an
explicit origin, fails and leaves no Device. That the line latches and the ghosts are kept is the model's reading
(notes/assumptions/7.md, DEDUCED, unsafe). -/
def Obligations.ConfigGeometry : Prop :=
  ∀ (s : State) (f : ConfigFields), f.rstp = true → f.dcp = true →
    (f.width = 0 ∨ f.height = 0 ∨ (f.orgp = false ∧ ∀ xs ys, ¬ PresetIs s.params f.width f.height xs ys)) →
    exec (.config f) s = .next { recorded s .constructGeometry .empty with device := none }

/-! Command framing. -/

/-- 41_command_framing.md R140, R141, R142, R143: SEND emits the four steps of the frame, command byte and data
unexamined. The ghosts follow R146, after 0x01 too, where R53 reads otherwise (notes/assumptions/17.md, DEDUCED, the model's
reading). -/
def Obligations.SendFrame : Prop :=
  ∀ (s : State) (d : Device) (cmd : Option Byte) (data : Bytes), s.device = some d →
    BusOk s ((if cmd.isSome then 1 else 0) + (if data = [] then 0 else 1)) →
    Sends (.send cmd data) s (sendEvents d.hasCs cmd data) (cmd.bind ghostSleep) (cmd.bind ghostDisplay)

/-- 41_command_framing.md R144, 60_exceptions.md R266 (decisions D21, D22; notes/assumptions/8.md for the ghosts): a
failing transfer stops the frame there; chip-select is not raised. -/
def Obligations.SendAborts : Prop :=
  ∀ (s : State) (d : Device) (data : Bytes), s.device = some d →
    (∀ c : Byte, outcomeAt s s.xfers = .fail →
      ∃ t, exec (.send (some c) data) s = .next t ∧
        Aborted s t (ifLine d.hasCs (.cs .low) ++ [.dc .cmd, .xfer [c]]) ∧ t.device = s.device ∧ KeepsGhosts s t) ∧
    (∀ c : Byte, data ≠ [] → outcomeAt s s.xfers = .ok → outcomeAt s (s.xfers + 1) = .fail →
      ∃ t, exec (.send (some c) data) s = .next t ∧
        Aborted s t (ifLine d.hasCs (.cs .low) ++ [.dc .cmd, .xfer [c], .dc .data, .xfer data]) ∧
        t.device = s.device ∧ KeepsGhosts s t) ∧
    (data ≠ [] → outcomeAt s s.xfers = .fail →
      ∃ t, exec (.send none data) s = .next t ∧
        Aborted s t (ifLine d.hasCs (.cs .low) ++ [.dc .data, .xfer data]) ∧ t.device = s.device ∧ KeepsGhosts s t)

/-- 41_command_framing.md R150 to R161: each of the twelve wire frames (SWRESET, SLPIN, SLPOUT, NORON, INVOFF, INVON,
DISPON, CASET, RASET, RAMWR, MADCTL, COLMOD) is the SEND of its command byte and data bytes (as instructions:
notes/assumptions/5.md). The ghosts follow R146, after 0x01 too, where R53 reads otherwise (notes/assumptions/17.md,
DEDUCED, the model's reading). -/
def Obligations.WireFrames : Prop :=
  ∀ (i : Instr) (code : Byte) (data : Bytes) (s : State) (d : Device), wireFrame i = some (code, data) →
    s.device = some d → BusOk s (if data = [] then 1 else 2) →
    Sends i s (sendEvents d.hasCs (some code) data) (ghostSleep code) (ghostDisplay code)

/-! Window manager. -/

/-- 42_window_manager.md R170, R171, R173: a valid window is programmed by CASET, RASET and RAMWR, the origin added modulo
65536. Validity is the document's four comparisons, and under the `reject` policy no negative corner. -/
def Obligations.SetwinPrograms : Prop :=
  ∀ (s : State) (d : Device) (x0 y0 x1 y1 : Half), s.device = some d →
    WindowOk d s.params x0.toInt y0.toInt x1.toInt y1.toInt → BusOk s 5 →
    Draws (.setwin x0 y0 x1 y1) s (windowEvents d x0.toInt y0.toInt x1.toInt y1.toInt)

/-- 42_window_manager.md R172, 60_exceptions.md R270 a: an invalid window is silently ignored: nothing is emitted, nothing
changes, status OK. -/
def Obligations.SetwinIgnored : Prop :=
  ∀ (s : State) (d : Device) (x0 y0 x1 y1 : Half), s.device = some d →
    (x1.toInt < x0.toInt ∨ (d.width.toNat : Int) ≤ x1.toInt ∨ y1.toInt < y0.toInt ∨ (d.height.toNat : Int) ≤ y1.toInt ∨
      (s.params.negCoordPolicy = .reject ∧ (x0.toInt < 0 ∨ y0.toInt < 0))) →
    exec (.setwin x0 y0 x1 y1) s = .next (recorded s .ok .empty)

/-- 42_window_manager.md R174: the shape of what a successful SETWIN emits. -/
def Obligations.SetwinShape : Prop :=
  ∀ (s t : State) (d : Device) (x0 y0 x1 y1 : Half) (evs : List Event), s.device = some d → s.fault = false →
    WindowOk d s.params x0.toInt y0.toInt x1.toInt y1.toInt → exec (.setwin x0 y0 x1 y1) s = .next t →
    t.fault = false → t.trace = s.trace ++ evs →
    evs.length = (if d.hasCs then 16 else 10) ∧ (transfersOf evs).map List.length = [1, 4, 1, 4, 1] ∧
      commandBytes evs = [[0x2A], [0x2B], [0x2C]] ∧ t.lDc = some .cmd

/-! Pixel streamer. -/

/-- 43_pixel_streamer.md R180, R181: under either framing, from a buffer or from STAGE, the transfers of a stream are its
bytes in order, without gap or overlap, `n div 256` of 256 bytes and one of the rest, in data mode with no command byte.
10_state.md R34: its working registers stay below 2^32 for a buffer a length field can announce. That they do, `S_POS` among
them, for every stream of less than 2^40 bytes from STAGE (the largest FILL's are, 44_rasterizer.md R224) is no sentence of
R34: it is the model's reading, that `S_POS` is 0 for an SFILL because STAGE is its source (notes/assumptions/16.md,
DEDUCED). -/
def Obligations.StreamChunks : Prop :=
  ∀ (d : Device) (p : Params) (src : StreamSource) (bytes : Bytes),
    (transfersOf (eventsOf (streamActs d p src bytes))).flatten = bytes ∧
      (transfersOf (eventsOf (streamActs d p src bytes))).map List.length =
        List.replicate (bytes.length / 256) 256 ++ (if bytes.length % 256 = 0 then [] else [bytes.length % 256]) ∧
      .dc .cmd ∉ eventsOf (streamActs d p src bytes) ∧
      (∀ before b after, eventsOf (streamActs d p src bytes) = before ++ .xfer b :: after → lastDc before = some .data) ∧
      ((src = .buffer → fitsLength bytes) → bytes.length < 2 ^ 40 →
        ∀ r, .stream r ∈ streamActs d p src bytes → r.chunks < 2 ^ 32 ∧ r.rem < 2 ^ 32 ∧ r.pos < 2 ^ 32)

/-- 43_pixel_streamer.md R183 to R185 (decisions D11, D12, D13): SFILL streams the colour's pair `count` times, high byte
first, none for a count of zero or below, and sets no window. -/
def Obligations.SfillStreams : Prop :=
  ∀ (s : State) (d : Device) (color : Half) (count : Quad), s.device = some d →
    BusOk s (xferCount (sfillEvents d s.params color count.toInt)) →
    Draws (.sfill color count) s (sfillEvents d s.params color count.toInt)

/-- 43_pixel_streamer.md R186 i, R192: the number of transfers of SFILL, for both values of STREAM_FRAMING, all transfers
succeeding. -/
def Obligations.SfillTransfers : Prop :=
  ∀ (s t : State) (d : Device) (color : Half) (count : Quad), s.device = some d → s.fault = false →
    exec (.sfill color count) s = .next t → t.fault = false →
    t.xfers = s.xfers + count.toInt.toNat / 128 + (if count.toInt.toNat % 128 = 0 then 0 else 1)

/-- 43_pixel_streamer.md R188, R189, R190: BLIT attempts the window and streams the first `min(blen, w*h*2)` bytes of its
buffer, none if that is negative, whether or not the window was accepted. -/
def Obligations.BlitStreams : Prop :=
  ∀ (s : State) (d : Device) (x y w h : Half) (buf : Bytes) (evs : List Event), s.device = some d →
    evs = setwinEvents d s.params x.toInt y.toInt (x.toInt + w.toInt - 1) (y.toInt + h.toInt - 1) ++
      streamEvents d s.params (buf.take (min (buf.length : Int) (w.toInt * h.toInt * 2)).toNat) →
    BusOk s (xferCount evs) → Draws (.blit x y w h buf) s evs

/-- 43_pixel_streamer.md R192: the number of transfers of a BLIT with a valid window, for both values of STREAM_FRAMING, all
transfers succeeding. -/
def Obligations.BlitTransfers : Prop :=
  ∀ (s t : State) (d : Device) (x y w h : Half) (buf : Bytes) (n : Nat), s.device = some d → s.fault = false →
    WindowOk d s.params x.toInt y.toInt (x.toInt + w.toInt - 1) (y.toInt + h.toInt - 1) →
    (n : Int) = max 0 (min (buf.length : Int) (w.toInt * h.toInt * 2)) →
    exec (.blit x y w h buf) s = .next t → t.fault = false →
    t.xfers = s.xfers + 5 + n / 256 + (if n % 256 = 0 then 0 else 1)

/-! Rasterizer. -/

/-- 44_rasterizer.md R200, R201: PIXEL, opcode 0x50, attempts a one-cell window and streams the colour's two bytes, high byte
first, all the same. -/
def Obligations.PixelDraws : Prop :=
  ∀ (s : State) (d : Device) (x y color : Half), s.device = some d →
    decode ([0x50] ++ be16Z x.toNat ++ be16Z y.toNat ++ be16Z color.toNat) = .instr (.pixel x y color) ∧
    (BusOk s (xferCount (pixelEvents d s.params x.toInt y.toInt color)) →
      Draws (.pixel x y color) s (pixelEvents d s.params x.toInt y.toInt color))

/-- 44_rasterizer.md R202, R203, R205 (decision D14): HLINE. -/
def Obligations.HlineDraws : Prop :=
  ∀ (s : State) (d : Device) (x y len color : Half), s.device = some d →
    BusOk s (xferCount (hlineEvents d s.params x.toInt y.toInt len.toInt color)) →
    Draws (.hline x y len color) s (hlineEvents d s.params x.toInt y.toInt len.toInt color)

/-- 44_rasterizer.md R204, R205 (decision D14): VLINE. -/
def Obligations.VlineDraws : Prop :=
  ∀ (s : State) (d : Device) (x y len color : Half), s.device = some d →
    BusOk s (xferCount (vlineEvents d s.params x.toInt y.toInt len.toInt color)) →
    Draws (.vline x y len color) s (vlineEvents d s.params x.toInt y.toInt len.toInt color)

/-- 44_rasterizer.md R210: LINE makes its calls one after the other, each with its own window and stream. Which calls these
are is said by LineBresenham, LineCallCount and LineAxisAligned. -/
def Obligations.LineDraws : Prop :=
  ∀ (s : State) (d : Device) (x0 y0 x1 y1 color : Half) (evs : List Event), s.device = some d →
    evs = (lineCalls x0.toInt y0.toInt x1.toInt y1.toInt).flatMap (lineCallEvents d s.params color) →
    BusOk s (xferCount evs) → Draws (.line x0 y0 x1 y1 color) s evs

/-- 44_rasterizer.md R213 a, c: the pixels of LINE's calls, in order, are those of the classical integer Bresenham line from
the low to the high end of the driving axis. -/
def Obligations.LineBresenham : Prop :=
  ∀ x0 y0 x1 y1 : Int,
    (lineCalls x0 y0 x1 y1).flatMap callPixels =
      if (x1 - x0).natAbs < (y1 - y0).natAbs then
        (if y1 < y0 then bresenham y1 x1 y0 x0 else bresenham y0 x0 y1 x1).map Prod.swap
      else if x1 < x0 then bresenham x1 y1 x0 y0 else bresenham x0 y0 x1 y1

/-- 44_rasterizer.md R213 a, b, d: LINE makes one call for each value of the cross coordinate; the runs have `M + 1` pixels
in all; a run of one pixel is a PIXEL call and every HLINE or VLINE call has at least two, along the driving axis. -/
def Obligations.LineCallCount : Prop :=
  ∀ x0 y0 x1 y1 : Int,
    (lineCalls x0 y0 x1 y1).length = min (x1 - x0).natAbs (y1 - y0).natAbs + 1 ∧
      ((lineCalls x0 y0 x1 y1).map callLength).sum = max (x1 - x0).natAbs (y1 - y0).natAbs + 1 ∧
      ∀ c ∈ lineCalls x0 y0 x1 y1,
        match c with
        | .pixel _ _ => True
        | .hline _ _ n => 2 ≤ n ∧ (y1 - y0).natAbs ≤ (x1 - x0).natAbs
        | .vline _ _ n => 2 ≤ n ∧ (x1 - x0).natAbs < (y1 - y0).natAbs

/-- 44_rasterizer.md R213 e: exchanging the end points gives the same calls in the same order. -/
def Obligations.LineExchange : Prop :=
  ∀ x0 y0 x1 y1 : Int, lineCalls x1 y1 x0 y0 = lineCalls x0 y0 x1 y1

/-- 44_rasterizer.md R215 a, b, c: a point is one PIXEL, a horizontal line one HLINE, a vertical line one VLINE. -/
def Obligations.LineAxisAligned : Prop :=
  (∀ x y : Int, lineCalls x y x y = [.pixel x y]) ∧
    (∀ x0 x1 y : Int, x0 ≠ x1 → lineCalls x0 y x1 y = [.hline (min x0 x1) y ((x1 - x0).natAbs + 1)]) ∧
    ∀ x y0 y1 : Int, y0 ≠ y1 → lineCalls x y0 x y1 = [.vline x (min y0 y1) ((y1 - y0).natAbs + 1)]

/-- 44_rasterizer.md R220, R221: RECT draws top, left, bottom, right. -/
def Obligations.RectDraws : Prop :=
  ∀ (s : State) (d : Device) (x y w h color : Half) (evs : List Event), s.device = some d →
    evs = hlineEvents d s.params x.toInt y.toInt w.toInt color ++ vlineEvents d s.params x.toInt y.toInt h.toInt color ++
      hlineEvents d s.params x.toInt (y.toInt + h.toInt - 1) w.toInt color ++
      vlineEvents d s.params (x.toInt + w.toInt - 1) y.toInt h.toInt color →
    BusOk s (xferCount evs) → Draws (.rect x y w h color) s evs

/-- 44_rasterizer.md R222, R223 (decision D14): FRECT. -/
def Obligations.FrectDraws : Prop :=
  ∀ (s : State) (d : Device) (x y w h color : Half), s.device = some d →
    BusOk s (xferCount (frectEvents d s.params x.toInt y.toInt w.toInt h.toInt color)) →
    Draws (.frect x y w h color) s (frectEvents d s.params x.toInt y.toInt w.toInt h.toInt color)

/-- 44_rasterizer.md R224: FILL, opcode 0x56, programs the whole current frame, always accepted, and streams one pixel for each of its
cells. The positive size is what StepKeepsInv keeps. -/
def Obligations.FillDraws : Prop :=
  ∀ (s : State) (d : Device) (color : Half) (evs : List Event), s.device = some d → 0 < d.width.toNat → 0 < d.height.toNat →
    evs = windowEvents d 0 0 ((d.width.toNat : Int) - 1) ((d.height.toNat : Int) - 1) ++
      sfillEvents d s.params color (d.width.toNat * d.height.toNat) →
    decode ([0x56] ++ be16Z color.toNat) = .instr (.fill color) ∧ (BusOk s (xferCount evs) → Draws (.fill color) s evs)

/-! Lifecycle. -/

/-- 45_lifecycle.md R236: HRESET pulses the reset line with its settle times, makes no transfer and always succeeds, and
writes no register of the block. -/
def Obligations.HresetPulses : Prop :=
  ∀ (s : State) (d : Device), s.device = some d → decode [0x60] = .instr .hreset ∧
    ∃ t, exec .hreset s = .next t ∧ Completed s t (hresetEvents d.hasCs) .ok .empty ∧ KeepsRegisters s t ∧
      t.xfers = s.xfers ∧ t.gLife = some .resetting ∧ t.gSleep = some .asleep ∧ t.gDisp = some .displayOff

/-- 45_lifecycle.md R238: SRESET sends the software-reset command and waits 150 ms; if the transfer fails the delay is not
emitted. The rest of the failing clause is 60_exceptions.md R266 (decisions D21, D22); that it keeps G_SLEEP and G_DISP is
the model's choice (notes/assumptions/8.md, unsafe). -/
def Obligations.SresetSends : Prop :=
  ∀ (s : State) (d : Device), s.device = some d → decode [0x61] = .instr .sreset ∧
    (outcomeAt s s.xfers = .ok →
      ∃ t, exec .sreset s = .next t ∧
        Completed s t (sendEvents d.hasCs (some 0x01) [] ++ [.delay 150]) .ok .empty ∧ KeepsRegisters s t ∧
        t.gLife = some .resetting ∧ t.gSleep = some .asleep ∧ t.gDisp = some .displayOff) ∧
    (outcomeAt s s.xfers = .fail →
      ∃ t, exec .sreset s = .next t ∧ Aborted s t (ifLine d.hasCs (.cs .low) ++ [.dc .cmd, .xfer [0x01]]) ∧
        t.device = s.device ∧ t.gLife = some .resetting ∧ t.gSleep = s.gSleep ∧ t.gDisp = s.gDisp)

/-- 45_lifecycle.md R240, R241: INIT's whole sequence and the state it leaves; the rotation asked for at construction is
applied on the rotation-capable variant when it is 1, 2 or 3. -/
def Obligations.InitSequence : Prop :=
  ∀ (s : State) (d : Device), s.device = some d → BusOk s (xferCount (initEvents d s.params)) →
    ∃ t, exec .init s = .next t ∧ Completed s t (initEvents d s.params) .ok .empty ∧
      t.device = some (if InitRotates d then rotated d d.rotReq.toInt else d) ∧ t.fault = s.fault ∧
      t.gLife = some .ready ∧ t.gSleep = some .awake ∧ t.gDisp = some .displayOn

/-- 45_lifecycle.md R242: SLEEP sends sleep-in or sleep-out, with no delay, whatever the state was. -/
def Obligations.SleepSends : Prop :=
  ∀ (s : State) (d : Device), s.device = some d →
    decode [0x63, 0x01] = .instr (.sleep true) ∧ decode [0x63, 0x00] = .instr (.sleep false) ∧
    (BusOk s 1 →
      Sends (.sleep true) s (sendEvents d.hasCs (some 0x10) []) (some .asleep) none ∧
        Sends (.sleep false) s (sendEvents d.hasCs (some 0x11) []) (some .awake) none)

/-- 45_lifecycle.md R243 (decision D16): INVERT sends inversion-on or inversion-off, with no delay. -/
def Obligations.InvertSends : Prop :=
  ∀ (s : State) (d : Device), s.device = some d → BusOk s 1 →
    Draws (.invert true) s (sendEvents d.hasCs (some 0x21) []) ∧
      Draws (.invert false) s (sendEvents d.hasCs (some 0x20) [])

/-- 45_lifecycle.md R244, R245: BLON and BLOFF drive the backlight line, if there is one, and wait 10 ms; they make no
transfer and always succeed. -/
def Obligations.BacklightSwitches : Prop :=
  ∀ (s : State) (d : Device), s.device = some d →
    decode [0x65] = .instr .blon ∧ decode [0x66] = .instr .bloff ∧
    Draws .blon s (ifLine d.hasBl (.bl .high) ++ [.delay 10]) ∧
    Draws .bloff s (ifLine d.hasBl (.bl .low) ++ [.delay 10])

/-- 60_exceptions.md R264, 45_lifecycle.md R251 (decision D24): ROTATE and GETROT on the fixed-rotation variant complete
with ILLEGAL_REQUEST and change nothing. -/
def Obligations.RotationVariantOnly : Prop :=
  ∀ (s : State) (d : Device) (n : Half), s.device = some d → d.rotCap = false →
    exec (.rotate n) s = .next (recorded s .illegalRequest .empty) ∧
      exec .getrot s = .next (recorded s .illegalRequest .empty)

/-- 45_lifecycle.md R247, R248, 70_reset_and_hazards.md R307 (and 60_exceptions.md R266): ROTATE in range writes the
registers and then sends the addressing-mode frame; a failing transfer leaves the registers changed. -/
def Obligations.RotateSets : Prop :=
  ∀ (s : State) (d : Device) (n : Half), s.device = some d → d.rotCap = true → 0 ≤ n.toInt → n.toInt ≤ 3 →
    (BusOk s 2 →
      ∃ t, exec (.rotate n) s = .next t ∧ Completed s t (rotateEvents d s.params n.toInt) .ok .empty ∧
        t.device = some (rotated d n.toInt) ∧ t.fault = s.fault ∧ KeepsGhosts s t) ∧
    (outcomeAt s s.xfers = .fail →
      ∃ t, exec (.rotate n) s = .next t ∧ Aborted s t (ifLine d.hasCs (.cs .low) ++ [.dc .cmd, .xfer [0x36]]) ∧
        t.device = some (rotated d n.toInt) ∧ KeepsGhosts s t) ∧
    (outcomeAt s s.xfers = .ok → outcomeAt s (s.xfers + 1) = .fail →
      ∃ t, exec (.rotate n) s = .next t ∧
        Aborted s t (ifLine d.hasCs (.cs .low) ++
          [.dc .cmd, .xfer [0x36], .dc .data, .xfer [rotationByte s.params n.toInt]]) ∧
        t.device = some (rotated d n.toInt) ∧ KeepsGhosts s t)

/-- 45_lifecycle.md R247, R248 c, 60_exceptions.md R270 b: ROTATE out of range is a silent no-op with status OK. -/
def Obligations.RotateIgnored : Prop :=
  ∀ (s : State) (d : Device) (n : Half), s.device = some d → d.rotCap = true → (n.toInt < 0 ∨ 3 < n.toInt) →
    exec (.rotate n) s = .next (recorded s .ok .empty)

/-- 45_lifecycle.md R249: GETROT returns the rotation on the rotation-capable variant, and is illegal on the other; it emits
nothing and changes nothing. -/
def Obligations.GetrotReturns : Prop :=
  ∀ (s : State) (d : Device), s.device = some d → decode [0x68] = .instr .getrot ∧
    exec .getrot s =
      .next (if d.rotCap = true then recorded s .ok (.rotation d.rotation) else recorded s .illegalRequest .empty)

/-- 45_lifecycle.md R250 (decision D29): GETDIM returns width and height, emits nothing and changes nothing. -/
def Obligations.GetdimReturns : Prop :=
  ∀ (s : State) (d : Device), s.device = some d → exec .getdim s = .next (recorded s .ok (.dims d.width d.height))

/-! The whole machine. -/

/-- 60_exceptions.md R266, R277, R278 (decisions D21, D22): an abort is precise at event granularity. The trace of a request
is the beginning of the trace it has when the bus reports no failure. With FAULT set it ends in a transfer, the one the
bus failed, and every transfer of the request before it succeeded; with no failure it is that whole trace and every
transfer succeeded. -/
def Obligations.AbortPrecise : Prop :=
  ∀ (i : Instr) (s t u : State) (script : List BusResult), s.fault = false → exec i s = .next t →
    exec i { s with busScript := script } = .next u → u.fault = false →
    t.trace <+: u.trace ∧ (t.fault = false → t.trace = u.trace ∧ BusOk s (t.xfers - s.xfers)) ∧
      (t.fault = true →
        s.xfers < t.xfers ∧ outcomeAt s (t.xfers - 1) = .fail ∧ BusOk s (t.xfers - 1 - s.xfers) ∧
          ∃ b, t.trace.getLast? = some (.xfer b))

/-- 10_state.md R30, 60_exceptions.md R266, R277 (decision D22): FAULT is set by a request that ends with BUS_ERROR, by
nothing else, and no request clears it. -/
def Obligations.FaultRecordsBusErrors : Prop :=
  ∀ (i : Instr) (s t : State), exec i s = .next t →
    ∃ r, t.records = s.records ++ [r] ∧ (t.fault = true ↔ s.fault = true ∨ r.status = .busError)

/-- 10_state.md R30, R32, R44, R47, R50: what a request emits, answers and writes to the Device depends on its operands, the
Device, the run's parameters and the bus only: no rule reads FAULT, a latch of a line, a ghost variable, the trace or
anything an earlier request left in the transient state. -/
def Obligations.OnlyInputsMatter : Prop :=
  ∀ (i : Instr) (s s' t t' : State), s'.device = s.device → s'.params = s.params → s'.busScript = s.busScript →
    s'.xfers = s.xfers → exec i s = .next t → exec i s' = .next t' →
    t'.device = t.device ∧ t'.xfers = t.xfers ∧
      ∃ evs r, t.trace = s.trace ++ evs ∧ t'.trace = s'.trace ++ evs ∧ t.records = s.records ++ [r] ∧
        t'.records = s'.records ++ [r]

/-- 43_pixel_streamer.md R182, R192: the value of STREAM_FRAMING changes nothing but writes of chip-select and of the
data/command line: every other event is the same in the same order, and of the state after it only the trace, the
latches of those two lines and the parameter itself can differ. -/
def Obligations.FramingIndependent : Prop :=
  ∀ (i : Instr) (s t t' : State) (f : StreamFraming), exec i s = .next t →
    exec i { s with params := { s.params with streamFraming := f } } = .next t' →
    t' = { t with params := { s.params with streamFraming := f }, trace := t'.trace, lCs := t'.lCs, lDc := t'.lDc } ∧
      ∃ evs evs', t.trace = s.trace ++ evs ∧ t'.trace = s.trace ++ evs' ∧ offFrame evs' = offFrame evs

/-- 20_memory.md R75, 30_encoding.md R98: every command byte an instruction other than a host SEND puts on the wire is one of
the twelve. -/
def Obligations.TwelveCommands : Prop :=
  ∀ (i : Instr) (s t : State) (evs : List Event), (∀ cmd data, i ≠ .send cmd data) → exec i s = .next t →
    t.trace = s.trace ++ evs → ∀ b ∈ commandBytes evs, ∃ c ∈ commandCodes, b = [c]

/-- 10_state.md R22, R23, R27, R28, R29, R32, R44, 70_reset_and_hazards.md R291: frame of every instruction but CONFIG, on
every path, bus failures among them. The origin, the capabilities and the requested rotation never change; width, height
and rotation change by ROTATE and INIT only; a line's latch holds what the instruction last wrote to it; a Device neither
appears nor goes. Ghosts (R50 to R53, decision D25): an instruction that does not reset the panel leaves all three as they
were when it ends with another status than OK, a drawing request stopped by the bus among them, and else changes G_SLEEP
and G_DISP by its command byte only, as R146 says (notes/assumptions/8.md, 17.md, the model's readings); an INIT stopped by
the bus leaves G_LIFE Resetting or Initializing, and only an INIT with status OK reaches Ready. -/
def Obligations.RegistersKept : Prop :=
  ∀ (i : Instr) (s t : State), (∀ f, i ≠ .config f) → exec i s = .next t →
    (s.device = none → t.device = none) ∧
    (∀ d, s.device = some d →
      ∃ d', t.device = some d' ∧ d'.xstart = d.xstart ∧ d'.ystart = d.ystart ∧ d'.hasCs = d.hasCs ∧ d'.hasBl = d.hasBl ∧
        d'.rotCap = d.rotCap ∧ d'.rotReq = d.rotReq ∧ ((∀ n, i ≠ .rotate n) → i ≠ .init → d' = d)) ∧
    (∃ evs, t.trace = s.trace ++ evs ∧ t.lCs = (lastCs evs).or s.lCs ∧ t.lDc = (lastDc evs).or s.lDc ∧
      t.lRst = (lastRst evs).or s.lRst ∧ t.lBl = (lastBl evs).or s.lBl ∧ t.xfers = s.xfers + xferCount evs ∧
      t.requests = s.requests ∧ t.params = s.params ∧ t.busScript = s.busScript) ∧
    ∃ r, t.records = s.records ++ [r] ∧ (resetsPanel i = false → GhostsFollow i s t r) ∧
      (i = .init → r.status = .busError → t.gLife = some .resetting ∨ t.gLife = some .initializing) ∧
      (t.gLife = some .ready → s.gLife = some .ready ∨ (i = .init ∧ r.status = .ok))

/-- The state after block reset (10_state.md R55, 70_reset_and_hazards.md R290, decision D34), and it meets the invariant. -/
def Obligations.ResetInv : Prop :=
  State.reset.Inv ∧ State.reset.device = none ∧ State.reset.fault = false ∧ State.reset.trace = [] ∧
    State.reset.rp = 0 ∧ State.reset.lCs = none ∧ State.reset.lDc = none ∧ State.reset.lRst = none ∧
    State.reset.lBl = none ∧ State.reset.gLife = none ∧ State.reset.gSleep = none ∧ State.reset.gDisp = none

/-- Every step keeps the invariant of the state between requests (10_state.md R22, R27, R28, R30, R31, R32, R37, R38, R40,
R44): no transient state, one record per request, no empty transfer, FAULT exactly when a request ended with BUS_ERROR, a
Device of positive size, latches that agree with the trace. -/
def Obligations.StepKeepsInv : Prop := ∀ s t : State, s.Inv → step s = .next t → t.Inv

/-- 30_encoding.md R117, 60_exceptions.md R261 (decisions D3, D21): the bytes of every record. The status comes first, codes
0 to 6; then, big-endian, two bytes for PACK565, one for GETROT, four for GETDIM, four and the expansion for EXPBMP, whose
four are the length of the expansion; nothing for every other instruction and for every status but OK. -/
def Obligations.RecordBytes : Prop :=
  [Status.ok, .illegalRequest, .notConstructed, .constructLines, .constructGeometry, .busError, .badOperand].map statusCode =
      [0, 1, 2, 3, 4, 5, 6] ∧
    ∀ (i : Instr) (s t : State), exec i s = .next t →
      ∃ r, t.records = s.records ++ [r] ∧ (r.status ≠ .ok → recordBytes r = [statusCode r.status]) ∧
        (r.status = .ok →
          match i with
          | .pack565 _ _ _ => ∃ c, r.value = .color c ∧ recordBytes r = 0 :: be16Z c.toNat
          | .getrot => ∃ n, r.value = .rotation n ∧ recordBytes r = [0, BitVec.ofNat 8 n.toNat]
          | .getdim => ∃ w h, r.value = .dims w h ∧ recordBytes r = 0 :: (be16Z w.toNat ++ be16Z h.toNat)
          | .expbmp _ _ _ _ _ =>
            ∃ n out head, r.value = .expanded n out ∧ recordBytes r = 0 :: (head ++ out) ∧ head.length = 4 ∧
              beValue head = out.length
          | _ => recordBytes r = [0])
end

