-- ==== Sys2Proof/Laws/State.lean ====
section
/-! SUPPORT. One lemma per field per update of State, so that no proof unfolds a record update. -/

namespace Sys2Proof.Machine

/-! acceptRequest -/

@[simp] theorem acceptRequest_device (l : Latches) (s : State) : (acceptRequest l s).device = s.device := rfl
@[simp] theorem acceptRequest_fault (l : Latches) (s : State) : (acceptRequest l s).fault = s.fault := rfl
@[simp] theorem acceptRequest_busy (l : Latches) (s : State) : (acceptRequest l s).busy = true := rfl
@[simp] theorem acceptRequest_latches (l : Latches) (s : State) : (acceptRequest l s).latches = some l := rfl
@[simp] theorem acceptRequest_stage (l : Latches) (s : State) : (acceptRequest l s).stage = s.stage := rfl
@[simp] theorem acceptRequest_stream (l : Latches) (s : State) : (acceptRequest l s).stream = s.stream := rfl
@[simp] theorem acceptRequest_line (l : Latches) (s : State) : (acceptRequest l s).line = s.line := rfl
@[simp] theorem acceptRequest_lCs (l : Latches) (s : State) : (acceptRequest l s).lCs = s.lCs := rfl
@[simp] theorem acceptRequest_lDc (l : Latches) (s : State) : (acceptRequest l s).lDc = s.lDc := rfl
@[simp] theorem acceptRequest_lRst (l : Latches) (s : State) : (acceptRequest l s).lRst = s.lRst := rfl
@[simp] theorem acceptRequest_lBl (l : Latches) (s : State) : (acceptRequest l s).lBl = s.lBl := rfl
@[simp] theorem acceptRequest_gLife (l : Latches) (s : State) : (acceptRequest l s).gLife = s.gLife := rfl
@[simp] theorem acceptRequest_gSleep (l : Latches) (s : State) : (acceptRequest l s).gSleep = s.gSleep := rfl
@[simp] theorem acceptRequest_gDisp (l : Latches) (s : State) : (acceptRequest l s).gDisp = s.gDisp := rfl
@[simp] theorem acceptRequest_trace (l : Latches) (s : State) : (acceptRequest l s).trace = s.trace := rfl
@[simp] theorem acceptRequest_records (l : Latches) (s : State) : (acceptRequest l s).records = s.records := rfl
@[simp] theorem acceptRequest_rp (l : Latches) (s : State) : (acceptRequest l s).rp = s.rp := rfl
@[simp] theorem acceptRequest_requests (l : Latches) (s : State) : (acceptRequest l s).requests = s.requests := rfl
@[simp] theorem acceptRequest_xfers (l : Latches) (s : State) : (acceptRequest l s).xfers = s.xfers := rfl
@[simp] theorem acceptRequest_params (l : Latches) (s : State) : (acceptRequest l s).params = s.params := rfl
@[simp] theorem acceptRequest_busScript (l : Latches) (s : State) : (acceptRequest l s).busScript = s.busScript := rfl

/-! complete -/

@[simp] theorem complete_device (st : Status) (v : Value) (s : State) : (complete st v s).device = s.device := rfl
@[simp] theorem complete_fault (st : Status) (v : Value) (s : State) : (complete st v s).fault = s.fault := rfl
@[simp] theorem complete_busy (st : Status) (v : Value) (s : State) : (complete st v s).busy = false := rfl
@[simp] theorem complete_latches (st : Status) (v : Value) (s : State) : (complete st v s).latches = none := rfl
@[simp] theorem complete_stage (st : Status) (v : Value) (s : State) : (complete st v s).stage = none := rfl
@[simp] theorem complete_stream (st : Status) (v : Value) (s : State) : (complete st v s).stream = none := rfl
@[simp] theorem complete_line (st : Status) (v : Value) (s : State) : (complete st v s).line = none := rfl
@[simp] theorem complete_lCs (st : Status) (v : Value) (s : State) : (complete st v s).lCs = s.lCs := rfl
@[simp] theorem complete_lDc (st : Status) (v : Value) (s : State) : (complete st v s).lDc = s.lDc := rfl
@[simp] theorem complete_lRst (st : Status) (v : Value) (s : State) : (complete st v s).lRst = s.lRst := rfl
@[simp] theorem complete_lBl (st : Status) (v : Value) (s : State) : (complete st v s).lBl = s.lBl := rfl
@[simp] theorem complete_gLife (st : Status) (v : Value) (s : State) : (complete st v s).gLife = s.gLife := rfl
@[simp] theorem complete_gSleep (st : Status) (v : Value) (s : State) : (complete st v s).gSleep = s.gSleep := rfl
@[simp] theorem complete_gDisp (st : Status) (v : Value) (s : State) : (complete st v s).gDisp = s.gDisp := rfl
@[simp] theorem complete_trace (st : Status) (v : Value) (s : State) : (complete st v s).trace = s.trace := rfl
@[simp] theorem complete_records (st : Status) (v : Value) (s : State) : (complete st v s).records = s.records ++ [⟨st, v⟩] := rfl
@[simp] theorem complete_rp (st : Status) (v : Value) (s : State) : (complete st v s).rp = s.rp + 1 := rfl
@[simp] theorem complete_requests (st : Status) (v : Value) (s : State) : (complete st v s).requests = s.requests := rfl
@[simp] theorem complete_xfers (st : Status) (v : Value) (s : State) : (complete st v s).xfers = s.xfers := rfl
@[simp] theorem complete_params (st : Status) (v : Value) (s : State) : (complete st v s).params = s.params := rfl
@[simp] theorem complete_busScript (st : Status) (v : Value) (s : State) : (complete st v s).busScript = s.busScript := rfl

/-! setFault -/

@[simp] theorem setFault_device (s : State) : (setFault s).device = s.device := rfl
@[simp] theorem setFault_fault (s : State) : (setFault s).fault = true := rfl
@[simp] theorem setFault_busy (s : State) : (setFault s).busy = s.busy := rfl
@[simp] theorem setFault_latches (s : State) : (setFault s).latches = s.latches := rfl
@[simp] theorem setFault_stage (s : State) : (setFault s).stage = s.stage := rfl
@[simp] theorem setFault_stream (s : State) : (setFault s).stream = s.stream := rfl
@[simp] theorem setFault_line (s : State) : (setFault s).line = s.line := rfl
@[simp] theorem setFault_lCs (s : State) : (setFault s).lCs = s.lCs := rfl
@[simp] theorem setFault_lDc (s : State) : (setFault s).lDc = s.lDc := rfl
@[simp] theorem setFault_lRst (s : State) : (setFault s).lRst = s.lRst := rfl
@[simp] theorem setFault_lBl (s : State) : (setFault s).lBl = s.lBl := rfl
@[simp] theorem setFault_gLife (s : State) : (setFault s).gLife = s.gLife := rfl
@[simp] theorem setFault_gSleep (s : State) : (setFault s).gSleep = s.gSleep := rfl
@[simp] theorem setFault_gDisp (s : State) : (setFault s).gDisp = s.gDisp := rfl
@[simp] theorem setFault_trace (s : State) : (setFault s).trace = s.trace := rfl
@[simp] theorem setFault_records (s : State) : (setFault s).records = s.records := rfl
@[simp] theorem setFault_rp (s : State) : (setFault s).rp = s.rp := rfl
@[simp] theorem setFault_requests (s : State) : (setFault s).requests = s.requests := rfl
@[simp] theorem setFault_xfers (s : State) : (setFault s).xfers = s.xfers := rfl
@[simp] theorem setFault_params (s : State) : (setFault s).params = s.params := rfl
@[simp] theorem setFault_busScript (s : State) : (setFault s).busScript = s.busScript := rfl

/-! dropDevice -/

@[simp] theorem dropDevice_device (s : State) : (dropDevice s).device = none := rfl
@[simp] theorem dropDevice_fault (s : State) : (dropDevice s).fault = s.fault := rfl
@[simp] theorem dropDevice_busy (s : State) : (dropDevice s).busy = s.busy := rfl
@[simp] theorem dropDevice_latches (s : State) : (dropDevice s).latches = s.latches := rfl
@[simp] theorem dropDevice_stage (s : State) : (dropDevice s).stage = s.stage := rfl
@[simp] theorem dropDevice_stream (s : State) : (dropDevice s).stream = s.stream := rfl
@[simp] theorem dropDevice_line (s : State) : (dropDevice s).line = s.line := rfl
@[simp] theorem dropDevice_lCs (s : State) : (dropDevice s).lCs = s.lCs := rfl
@[simp] theorem dropDevice_lDc (s : State) : (dropDevice s).lDc = s.lDc := rfl
@[simp] theorem dropDevice_lRst (s : State) : (dropDevice s).lRst = s.lRst := rfl
@[simp] theorem dropDevice_lBl (s : State) : (dropDevice s).lBl = s.lBl := rfl
@[simp] theorem dropDevice_gLife (s : State) : (dropDevice s).gLife = s.gLife := rfl
@[simp] theorem dropDevice_gSleep (s : State) : (dropDevice s).gSleep = s.gSleep := rfl
@[simp] theorem dropDevice_gDisp (s : State) : (dropDevice s).gDisp = s.gDisp := rfl
@[simp] theorem dropDevice_trace (s : State) : (dropDevice s).trace = s.trace := rfl
@[simp] theorem dropDevice_records (s : State) : (dropDevice s).records = s.records := rfl
@[simp] theorem dropDevice_rp (s : State) : (dropDevice s).rp = s.rp := rfl
@[simp] theorem dropDevice_requests (s : State) : (dropDevice s).requests = s.requests := rfl
@[simp] theorem dropDevice_xfers (s : State) : (dropDevice s).xfers = s.xfers := rfl
@[simp] theorem dropDevice_params (s : State) : (dropDevice s).params = s.params := rfl
@[simp] theorem dropDevice_busScript (s : State) : (dropDevice s).busScript = s.busScript := rfl

/-! writeOutput -/

@[simp] theorem writeOutput_device (out : Bytes) (s : State) : (writeOutput out s).device = s.device := rfl
@[simp] theorem writeOutput_fault (out : Bytes) (s : State) : (writeOutput out s).fault = s.fault := rfl
@[simp] theorem writeOutput_busy (out : Bytes) (s : State) : (writeOutput out s).busy = s.busy := rfl
@[simp] theorem writeOutput_latches (out : Bytes) (s : State) : (writeOutput out s).latches = s.latches.map fun l => { l with o := some out } := rfl
@[simp] theorem writeOutput_stage (out : Bytes) (s : State) : (writeOutput out s).stage = s.stage := rfl
@[simp] theorem writeOutput_stream (out : Bytes) (s : State) : (writeOutput out s).stream = s.stream := rfl
@[simp] theorem writeOutput_line (out : Bytes) (s : State) : (writeOutput out s).line = s.line := rfl
@[simp] theorem writeOutput_lCs (out : Bytes) (s : State) : (writeOutput out s).lCs = s.lCs := rfl
@[simp] theorem writeOutput_lDc (out : Bytes) (s : State) : (writeOutput out s).lDc = s.lDc := rfl
@[simp] theorem writeOutput_lRst (out : Bytes) (s : State) : (writeOutput out s).lRst = s.lRst := rfl
@[simp] theorem writeOutput_lBl (out : Bytes) (s : State) : (writeOutput out s).lBl = s.lBl := rfl
@[simp] theorem writeOutput_gLife (out : Bytes) (s : State) : (writeOutput out s).gLife = s.gLife := rfl
@[simp] theorem writeOutput_gSleep (out : Bytes) (s : State) : (writeOutput out s).gSleep = s.gSleep := rfl
@[simp] theorem writeOutput_gDisp (out : Bytes) (s : State) : (writeOutput out s).gDisp = s.gDisp := rfl
@[simp] theorem writeOutput_trace (out : Bytes) (s : State) : (writeOutput out s).trace = s.trace := rfl
@[simp] theorem writeOutput_records (out : Bytes) (s : State) : (writeOutput out s).records = s.records := rfl
@[simp] theorem writeOutput_rp (out : Bytes) (s : State) : (writeOutput out s).rp = s.rp := rfl
@[simp] theorem writeOutput_requests (out : Bytes) (s : State) : (writeOutput out s).requests = s.requests := rfl
@[simp] theorem writeOutput_xfers (out : Bytes) (s : State) : (writeOutput out s).xfers = s.xfers := rfl
@[simp] theorem writeOutput_params (out : Bytes) (s : State) : (writeOutput out s).params = s.params := rfl
@[simp] theorem writeOutput_busScript (out : Bytes) (s : State) : (writeOutput out s).busScript = s.busScript := rfl

/-! constructDevice -/

@[simp] theorem constructDevice_device (d : Device) (s : State) : (constructDevice d s).device = some d := rfl
@[simp] theorem constructDevice_fault (d : Device) (s : State) : (constructDevice d s).fault = s.fault := rfl
@[simp] theorem constructDevice_busy (d : Device) (s : State) : (constructDevice d s).busy = s.busy := rfl
@[simp] theorem constructDevice_latches (d : Device) (s : State) : (constructDevice d s).latches = s.latches := rfl
@[simp] theorem constructDevice_stage (d : Device) (s : State) : (constructDevice d s).stage = s.stage := rfl
@[simp] theorem constructDevice_stream (d : Device) (s : State) : (constructDevice d s).stream = s.stream := rfl
@[simp] theorem constructDevice_line (d : Device) (s : State) : (constructDevice d s).line = s.line := rfl
@[simp] theorem constructDevice_lCs (d : Device) (s : State) : (constructDevice d s).lCs = none := rfl
@[simp] theorem constructDevice_lDc (d : Device) (s : State) : (constructDevice d s).lDc = none := rfl
@[simp] theorem constructDevice_lRst (d : Device) (s : State) : (constructDevice d s).lRst = none := rfl
@[simp] theorem constructDevice_lBl (d : Device) (s : State) : (constructDevice d s).lBl = none := rfl
@[simp] theorem constructDevice_gLife (d : Device) (s : State) : (constructDevice d s).gLife = some .uninitialized := rfl
@[simp] theorem constructDevice_gSleep (d : Device) (s : State) : (constructDevice d s).gSleep = none := rfl
@[simp] theorem constructDevice_gDisp (d : Device) (s : State) : (constructDevice d s).gDisp = none := rfl
@[simp] theorem constructDevice_trace (d : Device) (s : State) : (constructDevice d s).trace = s.trace := rfl
@[simp] theorem constructDevice_records (d : Device) (s : State) : (constructDevice d s).records = s.records := rfl
@[simp] theorem constructDevice_rp (d : Device) (s : State) : (constructDevice d s).rp = s.rp := rfl
@[simp] theorem constructDevice_requests (d : Device) (s : State) : (constructDevice d s).requests = s.requests := rfl
@[simp] theorem constructDevice_xfers (d : Device) (s : State) : (constructDevice d s).xfers = s.xfers := rfl
@[simp] theorem constructDevice_params (d : Device) (s : State) : (constructDevice d s).params = s.params := rfl
@[simp] theorem constructDevice_busScript (d : Device) (s : State) : (constructDevice d s).busScript = s.busScript := rfl

/-! Completing forgets what acceptance wrote. -/

@[simp] theorem complete_acceptRequest (st : Status) (v : Value) (l : Latches) (s : State) :
    complete st v (acceptRequest l s) = complete st v s := rfl

@[simp] theorem complete_writeOutput (st : Status) (v : Value) (out : Bytes) (s : State) :
    complete st v (writeOutput out s) = complete st v s := rfl

theorem complete_eq_recorded (st : Status) (v : Value) (s : State) : complete st v s = recorded s st v := rfl

/-! One action: the fields it never writes, and what it does to the ones it may. -/

@[simp] theorem applyAct_fault (a : Act) (s : State) : (applyAct a s).fault = s.fault := by cases a <;> rfl
@[simp] theorem applyAct_busy (a : Act) (s : State) : (applyAct a s).busy = s.busy := by cases a <;> rfl
@[simp] theorem applyAct_latches (a : Act) (s : State) : (applyAct a s).latches = s.latches := by cases a <;> rfl
@[simp] theorem applyAct_records (a : Act) (s : State) : (applyAct a s).records = s.records := by cases a <;> rfl
@[simp] theorem applyAct_rp (a : Act) (s : State) : (applyAct a s).rp = s.rp := by cases a <;> rfl
@[simp] theorem applyAct_requests (a : Act) (s : State) : (applyAct a s).requests = s.requests := by cases a <;> rfl
@[simp] theorem applyAct_params (a : Act) (s : State) : (applyAct a s).params = s.params := by cases a <;> rfl
@[simp] theorem applyAct_busScript (a : Act) (s : State) : (applyAct a s).busScript = s.busScript := by cases a <;> rfl

theorem applyAct_trace (a : Act) (s : State) : (applyAct a s).trace = s.trace ++ (actEvent a).toList := by
  cases a <;> simp [applyAct, actEvent]

theorem applyAct_xfers (a : Act) (s : State) :
    (applyAct a s).xfers = s.xfers + xferCount (actEvent a).toList := by
  cases a <;> rfl

theorem applyAct_lCs (a : Act) (s : State) : (applyAct a s).lCs = (lastCs (actEvent a).toList).or s.lCs := by
  cases a <;> rfl

theorem applyAct_lDc (a : Act) (s : State) : (applyAct a s).lDc = (lastDc (actEvent a).toList).or s.lDc := by
  cases a <;> rfl

theorem applyAct_lRst (a : Act) (s : State) : (applyAct a s).lRst = (lastRst (actEvent a).toList).or s.lRst := by
  cases a <;> rfl

theorem applyAct_lBl (a : Act) (s : State) : (applyAct a s).lBl = (lastBl (actEvent a).toList).or s.lBl := by
  cases a <;> rfl

end Sys2Proof.Machine
end

