-- ==== Sys2Proof/Laws/Run.lean ====
section
/-! SUPPORT. Everything the shared operations can do: reading traces over concatenation, performing actions when every
transfer succeeds, and `runActs` in general: it performs all the actions, or stops right after the first transfer
that fails (60_exceptions.md R266, R277). Callers cite these lemmas and never unfold `runActs`. -/

namespace Sys2Proof

open Machine

/-! Trace readers over concatenation. -/

@[simp] theorem transfersOf_nil : transfersOf [] = [] := rfl

@[simp] theorem transfersOf_append (a b : List Event) : transfersOf (a ++ b) = transfersOf a ++ transfersOf b := by
  simp [transfersOf]

@[simp] theorem xferCount_nil : xferCount [] = 0 := rfl

@[simp] theorem xferCount_append (a b : List Event) : xferCount (a ++ b) = xferCount a + xferCount b := by
  simp [xferCount]

@[simp] theorem offFrame_append (a b : List Event) : offFrame (a ++ b) = offFrame a ++ offFrame b :=
  List.filter_append ..

theorem lastCs_append (a b : List Event) : lastCs (a ++ b) = (lastCs b).or (lastCs a) := by
  simp [lastCs, List.getLast?_append]

theorem lastDc_append (a b : List Event) : lastDc (a ++ b) = (lastDc b).or (lastDc a) := by
  simp [lastDc, List.getLast?_append]

theorem lastRst_append (a b : List Event) : lastRst (a ++ b) = (lastRst b).or (lastRst a) := by
  simp [lastRst, List.getLast?_append]

theorem lastBl_append (a b : List Event) : lastBl (a ++ b) = (lastBl b).or (lastBl a) := by
  simp [lastBl, List.getLast?_append]

namespace Machine

/-! Events of actions. -/

@[simp] theorem eventsOf_nil : eventsOf [] = [] := rfl

@[simp] theorem eventsOf_append (a b : List Act) : eventsOf (a ++ b) = eventsOf a ++ eventsOf b := by
  simp [eventsOf]

theorem eventsOf_cons (a : Act) (b : List Act) : eventsOf (a :: b) = (actEvent a).toList ++ eventsOf b := by
  cases a <;> rfl

theorem eventsOf_flatMap {α : Type} (xs : List α) (f : α → List Act) :
    eventsOf (xs.flatMap f) = xs.flatMap fun x => eventsOf (f x) := by
  induction xs with
  | nil => rfl
  | cons x rest ih => simp [ih]

/-! Performing actions, every transfer succeeding. -/

@[simp] theorem applyActs_nil (s : State) : applyActs [] s = s := rfl

theorem applyActs_cons (a : Act) (acts : List Act) (s : State) :
    applyActs (a :: acts) s = applyActs acts (applyAct a s) := rfl

theorem applyActs_append (a b : List Act) (s : State) : applyActs (a ++ b) s = applyActs b (applyActs a s) := by
  simp [applyActs]

@[simp] theorem applyActs_fault (acts : List Act) (s : State) : (applyActs acts s).fault = s.fault := by
  induction acts generalizing s with
  | nil => rfl
  | cons a rest ih => simp [applyActs_cons, ih]

@[simp] theorem applyActs_busy (acts : List Act) (s : State) : (applyActs acts s).busy = s.busy := by
  induction acts generalizing s with
  | nil => rfl
  | cons a rest ih => simp [applyActs_cons, ih]

@[simp] theorem applyActs_latches (acts : List Act) (s : State) : (applyActs acts s).latches = s.latches := by
  induction acts generalizing s with
  | nil => rfl
  | cons a rest ih => simp [applyActs_cons, ih]

@[simp] theorem applyActs_records (acts : List Act) (s : State) : (applyActs acts s).records = s.records := by
  induction acts generalizing s with
  | nil => rfl
  | cons a rest ih => simp [applyActs_cons, ih]

@[simp] theorem applyActs_rp (acts : List Act) (s : State) : (applyActs acts s).rp = s.rp := by
  induction acts generalizing s with
  | nil => rfl
  | cons a rest ih => simp [applyActs_cons, ih]

@[simp] theorem applyActs_requests (acts : List Act) (s : State) : (applyActs acts s).requests = s.requests := by
  induction acts generalizing s with
  | nil => rfl
  | cons a rest ih => simp [applyActs_cons, ih]

@[simp] theorem applyActs_params (acts : List Act) (s : State) : (applyActs acts s).params = s.params := by
  induction acts generalizing s with
  | nil => rfl
  | cons a rest ih => simp [applyActs_cons, ih]

@[simp] theorem applyActs_busScript (acts : List Act) (s : State) : (applyActs acts s).busScript = s.busScript := by
  induction acts generalizing s with
  | nil => rfl
  | cons a rest ih => simp [applyActs_cons, ih]

theorem applyActs_trace (acts : List Act) (s : State) : (applyActs acts s).trace = s.trace ++ eventsOf acts := by
  induction acts generalizing s with
  | nil => simp
  | cons a rest ih => simp [applyActs_cons, ih, applyAct_trace, eventsOf_cons]

theorem applyActs_xfers (acts : List Act) (s : State) :
    (applyActs acts s).xfers = s.xfers + xferCount (eventsOf acts) := by
  induction acts generalizing s with
  | nil => rfl
  | cons a rest ih => simp [applyActs_cons, ih, applyAct_xfers, eventsOf_cons, Nat.add_assoc]

theorem applyActs_lCs (acts : List Act) (s : State) :
    (applyActs acts s).lCs = (lastCs (eventsOf acts)).or s.lCs := by
  induction acts generalizing s with
  | nil => rfl
  | cons a rest ih => simp [applyActs_cons, ih, applyAct_lCs, eventsOf_cons, lastCs_append, Option.or_assoc]

theorem applyActs_lDc (acts : List Act) (s : State) :
    (applyActs acts s).lDc = (lastDc (eventsOf acts)).or s.lDc := by
  induction acts generalizing s with
  | nil => rfl
  | cons a rest ih => simp [applyActs_cons, ih, applyAct_lDc, eventsOf_cons, lastDc_append, Option.or_assoc]

theorem applyActs_lRst (acts : List Act) (s : State) :
    (applyActs acts s).lRst = (lastRst (eventsOf acts)).or s.lRst := by
  induction acts generalizing s with
  | nil => rfl
  | cons a rest ih => simp [applyActs_cons, ih, applyAct_lRst, eventsOf_cons, lastRst_append, Option.or_assoc]

theorem applyActs_lBl (acts : List Act) (s : State) :
    (applyActs acts s).lBl = (lastBl (eventsOf acts)).or s.lBl := by
  induction acts generalizing s with
  | nil => rfl
  | cons a rest ih => simp [applyActs_cons, ih, applyAct_lBl, eventsOf_cons, lastBl_append, Option.or_assoc]

/-- An action that writes neither the Device nor a ghost variable. -/
def quietAct : Act → Bool
  | .device _ => false
  | .life _ => false
  | .sleep _ => false
  | .disp _ => false
  | _ => true

/-- Actions that write neither the Device nor a ghost variable. -/
def Quiet (acts : List Act) : Prop := acts.all quietAct = true

theorem quiet_cons {a : Act} {acts : List Act} : Quiet (a :: acts) ↔ quietAct a = true ∧ Quiet acts := by
  simp [Quiet]

theorem applyActs_device_of_quiet (acts : List Act) (s : State) (h : Quiet acts) :
    (applyActs acts s).device = s.device := by
  induction acts generalizing s with
  | nil => rfl
  | cons a rest ih =>
    have ha := (quiet_cons.1 h).1
    rw [applyActs_cons, ih _ (quiet_cons.1 h).2]
    cases a <;> first | rfl | simp [quietAct] at ha

theorem applyActs_gLife_of_quiet (acts : List Act) (s : State) (h : Quiet acts) :
    (applyActs acts s).gLife = s.gLife := by
  induction acts generalizing s with
  | nil => rfl
  | cons a rest ih =>
    have ha := (quiet_cons.1 h).1
    rw [applyActs_cons, ih _ (quiet_cons.1 h).2]
    cases a <;> first | rfl | simp [quietAct] at ha

theorem applyActs_gSleep_of_quiet (acts : List Act) (s : State) (h : Quiet acts) :
    (applyActs acts s).gSleep = s.gSleep := by
  induction acts generalizing s with
  | nil => rfl
  | cons a rest ih =>
    have ha := (quiet_cons.1 h).1
    rw [applyActs_cons, ih _ (quiet_cons.1 h).2]
    cases a <;> first | rfl | simp [quietAct] at ha

theorem applyActs_gDisp_of_quiet (acts : List Act) (s : State) (h : Quiet acts) :
    (applyActs acts s).gDisp = s.gDisp := by
  induction acts generalizing s with
  | nil => rfl
  | cons a rest ih =>
    have ha := (quiet_cons.1 h).1
    rw [applyActs_cons, ih _ (quiet_cons.1 h).2]
    cases a <;> first | rfl | simp [quietAct] at ha

/-! Running actions. -/

theorem outcomeAt_congr {s t : State} (h : t.busScript = s.busScript) (k : Nat) : outcomeAt t k = outcomeAt s k := by
  simp [outcomeAt, h]

theorem runActs_cons (a : Act) (rest : List Act) (s : State) :
    runActs (a :: rest) s =
      match stepAct a s with
      | .running t => runActs rest t
      | .raised st t => .raised st t := rfl

/-- One action runs on, or is a transfer that fails. -/
theorem stepAct_cases (a : Act) (s : State) :
    (stepAct a s = .running (applyAct a s) ∧ (∀ b, a = .xfer b → outcomeAt s s.xfers = .ok)) ∨
      ∃ b, a = .xfer b ∧ outcomeAt s s.xfers = .fail ∧
        stepAct a s = .raised .busError (setFault (applyAct (.xfer b) s)) := by
  cases a with
  | xfer b =>
    cases h : outcomeAt s s.xfers with
    | ok => exact .inl ⟨by simp [stepAct, h], fun _ _ => rfl⟩
    | fail => exact .inr ⟨b, rfl, rfl, by simp [stepAct, h]⟩
  | _ => exact .inl ⟨rfl, fun _ h => by cases h⟩

/-- Sequencing (R15, `call`). -/
theorem runActs_append (a b : List Act) (s : State) :
    runActs (a ++ b) s =
      match runActs a s with
      | .running t => runActs b t
      | .raised st t => .raised st t := by
  induction a generalizing s with
  | nil => rfl
  | cons x rest ih =>
    rw [List.cons_append, runActs_cons, runActs_cons]
    cases stepAct x s with
    | running t => exact ih t
    | raised st t => rfl

theorem busOk_applyAct {s : State} {a : Act} {n : Nat} (h : BusOk s (xferCount (actEvent a).toList + n)) :
    BusOk (applyAct a s) n := by
  intro k hk
  rw [outcomeAt_congr (applyAct_busScript a s), applyAct_xfers, Nat.add_assoc]
  exact h _ (by omega)

/-- Every transfer succeeds: all actions are performed. -/
theorem runActs_of_busOk (acts : List Act) (s : State) (h : BusOk s (xferCount (eventsOf acts))) :
    runActs acts s = .running (applyActs acts s) := by
  induction acts generalizing s with
  | nil => rfl
  | cons a rest ih =>
    rw [eventsOf_cons, xferCount_append] at h
    rcases stepAct_cases a s with ⟨hr, -⟩ | ⟨b, rfl, hf, -⟩
    · rw [runActs_cons, hr]
      exact ih _ (busOk_applyAct h)
    · have h0 : outcomeAt s (s.xfers + 0) = .ok := h 0 (by simp [actEvent, xferCount, transfersOf])
      rw [Nat.add_zero, hf] at h0
      cases h0

/-- All that running actions can do (R266, R277): perform them all, or perform them up to a transfer whose outcome is
failure and stop there with BUS_ERROR and FAULT set. -/
theorem runActs_cases (acts : List Act) (s : State) :
    (runActs acts s = .running (applyActs acts s) ∧ BusOk s (xferCount (eventsOf acts))) ∨
      ∃ before b after, acts = before ++ .xfer b :: after ∧ BusOk s (xferCount (eventsOf before)) ∧
        outcomeAt s (s.xfers + xferCount (eventsOf before)) = .fail ∧
        runActs acts s = .raised .busError (setFault (applyActs (before ++ [.xfer b]) s)) := by
  induction acts generalizing s with
  | nil => exact .inl ⟨rfl, fun k hk => absurd hk (Nat.not_lt_zero k)⟩
  | cons a rest ih =>
    rcases stepAct_cases a s with ⟨hr, hok⟩ | ⟨b, rfl, hf, hr⟩
    · have lift : ∀ n, BusOk (applyAct a s) n → BusOk s (xferCount (actEvent a).toList + n) := by
        intro n hn k hk
        cases a with
        | xfer b =>
          cases k with
          | zero => exact hok b rfl
          | succ k =>
            have := hn k (by simp [actEvent, xferCount, transfersOf] at hk; omega)
            rw [outcomeAt_congr (applyAct_busScript _ s), applyAct_xfers] at this
            rw [← this]
            congr 1
            simp [actEvent, xferCount, transfersOf]
            omega
        | _ => exact hn k (by simpa [actEvent, xferCount, transfersOf] using hk)
      rcases ih (applyAct a s) with ⟨hrun, hbus⟩ | ⟨before, b, after, rfl, hbus, hfail, hrun⟩
      · refine .inl ⟨by rw [runActs_cons, hr]; exact hrun, ?_⟩
        rw [eventsOf_cons, xferCount_append]
        exact lift _ hbus
      · refine .inr ⟨a :: before, b, after, rfl, ?_, ?_, by rw [runActs_cons, hr]; exact hrun⟩
        · rw [eventsOf_cons, xferCount_append]
          exact lift _ hbus
        · rw [outcomeAt_congr (applyAct_busScript a s), applyAct_xfers] at hfail
          rw [eventsOf_cons, xferCount_append, ← Nat.add_assoc]
          exact hfail
    · exact .inr ⟨[], b, rest, rfl, fun k hk => absurd hk (Nat.not_lt_zero k), hf, by rw [runActs_cons, hr]; rfl⟩

/-! The ends of a request. -/

theorem drive_of_busOk (acts : List Act) (s : State) (h : BusOk s (xferCount (eventsOf acts))) :
    drive acts s = .next (complete .ok .empty (applyActs acts s)) := by
  rw [drive, runActs_of_busOk acts s h]
  rfl

/-- All that a driven request can do. -/
theorem drive_cases (acts : List Act) (s : State) :
    (drive acts s = .next (complete .ok .empty (applyActs acts s)) ∧ BusOk s (xferCount (eventsOf acts))) ∨
      ∃ before b after, acts = before ++ .xfer b :: after ∧ BusOk s (xferCount (eventsOf before)) ∧
        outcomeAt s (s.xfers + xferCount (eventsOf before)) = .fail ∧
        drive acts s = .next (complete .busError .empty (setFault (applyActs (before ++ [.xfer b]) s))) := by
  rcases runActs_cases acts s with ⟨h, hb⟩ | ⟨before, b, after, e, hb, hf, h⟩
  · exact .inl ⟨by rw [drive, h]; rfl, hb⟩
  · exact .inr ⟨before, b, after, e, hb, hf, by rw [drive, h]; rfl⟩

theorem withDevice_none {l : Latches} {s : State} {k : Device → State → Host.Outcome State Fault Refusal}
    (h : s.device = none) : withDevice l s k = .next (recorded s .notConstructed .empty) := by
  rw [withDevice, h]
  rfl

theorem withDevice_some {l : Latches} {s : State} {k : Device → State → Host.Outcome State Fault Refusal} {d : Device}
    (h : s.device = some d) : withDevice l s k = k d (acceptRequest l s) := by
  rw [withDevice, h]

theorem whenRotCapable_true {d : Device} {s : State} {k : State → Host.Outcome State Fault Refusal}
    (h : d.rotCap = true) : whenRotCapable d s k = k s := by
  rw [whenRotCapable, h]
  rfl

theorem whenRotCapable_false {d : Device} {s : State} {k : State → Host.Outcome State Fault Refusal}
    (h : d.rotCap = false) : whenRotCapable d s k = .next (recorded s .illegalRequest .empty) := by
  rw [whenRotCapable, h]
  rfl

theorem busOk_acceptRequest {l : Latches} {s : State} {n : Nat} : BusOk (acceptRequest l s) n ↔ BusOk s n := Iff.rfl

/-- What a request that ran to its end leaves, but for the Device and the ghosts. -/
theorem completed_applyActs (acts : List Act) (s : State) (l : Latches) :
    Completed s (complete .ok .empty (applyActs acts (acceptRequest l s))) (eventsOf acts) .ok .empty := by
  refine ⟨?_, ?_, ?_, ?_, ?_, ?_, ?_, ?_, rfl, rfl, rfl, rfl, rfl, ?_, ?_, ?_⟩ <;>
    simp [applyActs_trace, applyActs_xfers, applyActs_lCs, applyActs_lDc, applyActs_lRst, applyActs_lBl]

end Machine

end Sys2Proof
end

