-- ==== Sys2Proof/Laws/Events.lean ====
section
/-! SUPPORT. What each sequence of actions emits, in the terms of Safety, and that it writes nothing else: one lemma per
operation of the rules, from the frame up. -/

namespace Sys2Proof

open Machine

/-! Bytes. -/

theorem half_be16 (v : Half) : half (v.extractLsb' 8 8) (v.extractLsb' 0 8) = v := by
  simp only [half]
  ext i hi
  simp only [BitVec.getElem_append, BitVec.getElem_extractLsb']
  split <;> rename_i h
  · simp [BitVec.getLsbD_eq_getElem (by omega : i < 16)]
  · rw [show 8 + (i - 8) = i by omega, BitVec.getLsbD_eq_getElem (by omega)]

theorem be16_ofInt (v : Int) : be16 (BitVec.ofInt 16 v) = be16Z v := by
  have h1 : (v % 65536).toNat < 65536 := by omega
  have h2 : (BitVec.ofInt 16 v).toNat = (v % 65536).toNat := by simp [BitVec.toNat_ofInt]
  simp only [be16, be16Z, List.cons.injEq, and_true]
  constructor
  · apply BitVec.eq_of_toNat_eq
    rw [BitVec.extractLsb'_toNat, h2]
    simp
  · apply BitVec.eq_of_toNat_eq
    rw [BitVec.extractLsb'_toNat, h2, BitVec.toNat_ofNat, show (255 : Nat) = 2 ^ 8 - 1 by rfl,
      Nat.and_two_pow_sub_one_eq_mod]
    simp

theorem be16_eq_be16Z (c : Half) : be16 c = be16Z c.toNat := by
  rw [← be16_ofInt, BitVec.ofInt_natCast, BitVec.ofNat_toNat, BitVec.setWidth_eq]

/-! Frames. -/

theorem eventsOf_csActs (d : Device) (l : Level) : eventsOf (csActs d l) = ifLine d.hasCs (.cs l) := by
  unfold csActs ifLine
  split <;> rfl

theorem eventsOf_frameActs (d : Device) (cmd : Option Byte) (data : Bytes) :
    eventsOf (frameActs d cmd data) = sendEvents d.hasCs cmd data := by
  rw [frameActs, eventsOf_append, eventsOf_append, eventsOf_append, eventsOf_csActs, eventsOf_csActs, sendEvents]
  congr 2
  · congr 1
    cases cmd <;> rfl
  · cases data <;> rfl

theorem eventsOf_ghostActs (cmd : Option Byte) : eventsOf (ghostActs cmd) = [] := by
  cases cmd with
  | none => rfl
  | some c =>
    rw [ghostActs, eventsOf_append]
    cases sleepAfter c <;> cases displayAfter c <;> rfl

theorem eventsOf_sendActs (d : Device) (cmd : Option Byte) (data : Bytes) :
    eventsOf (sendActs d cmd data) = sendEvents d.hasCs cmd data := by
  rw [sendActs, eventsOf_append, eventsOf_frameActs, eventsOf_ghostActs, List.append_nil]

/-! Windows. -/

theorem windowValid_iff (d : Device) (p : Params) (x0 y0 x1 y1 : Int) :
    windowValid d p x0 y0 x1 y1 = true ↔ WindowOk d p x0 y0 x1 y1 := by
  cases h : p.negCoordPolicy <;> simp only [windowValid, WindowOk, h, Bool.and_eq_true, decide_eq_true_eq, and_assoc] <;>
    simp [zext16]

theorem eventsOf_setwinActs (d : Device) (p : Params) (x0 y0 x1 y1 : Int) :
    eventsOf (setwinActs d p x0 y0 x1 y1) = setwinEvents d p x0 y0 x1 y1 := by
  unfold setwinActs setwinEvents
  by_cases h : WindowOk d p x0 y0 x1 y1
  · rw [if_pos ((windowValid_iff ..).2 h), if_pos h, eventsOf_append, eventsOf_append, casetActs, rasetActs, ramwrActs,
      eventsOf_sendActs, eventsOf_sendActs, eventsOf_sendActs]
    simp only [wireAddr, be16_ofInt]
    rfl
  · rw [if_neg (fun hv => h ((windowValid_iff ..).1 hv)), if_neg h]
    rfl

/-! Streams. -/

theorem streamPlan_bytes (src : StreamSource) (full rem pos : Nat) (rest : Bytes) (h : rest.length = 256 * full + rem) (hr : rem < 256) :
    (streamPlan src full rem pos rest).map (fun t => t.2) = chunksOf rest := by
  induction full generalizing pos rest with
  | zero =>
    rw [streamPlan]
    split
    · rename_i h0
      have : rest = [] := List.eq_nil_of_length_eq_zero (by omega)
      subst this
      rfl
    · rename_i h0
      have h1 : (rest.length + 255) / 256 = 1 := by omega
      simp [chunksOf, h1, List.take_of_length_le (show rest.length ≤ 256 by omega)]
  | succ full ih =>
    have h1 : (rest.length + 255) / 256 = ((rest.drop 256).length + 255) / 256 + 1 := by
      rw [List.length_drop]
      omega
    rw [streamPlan, List.map_cons, chunkBytes, ih _ _ (by rw [List.length_drop]; omega), chunksOf, chunksOf, h1,
      List.range_succ_eq_map]
    simp [List.drop_drop, Nat.mul_succ, Nat.add_comm]

theorem streamTransfers_bytes (src : StreamSource) (bytes : Bytes) :
    (streamTransfers src bytes).map (fun t => t.2) = chunksOf bytes :=
  streamPlan_bytes _ _ _ _ _ (Nat.div_add_mod bytes.length 256).symm (Nat.mod_lt _ (by decide))

/-- R34: every transfer of a stream is made from the bytes of its source at `S_POS`, in a buffer. -/
theorem streamPlan_buffer {full rem pos : Nat} {rest before : Bytes} {r : StreamRegs} {b : Bytes}
    (hp : before.length = pos) (h : (r, b) ∈ streamPlan .buffer full rem pos rest)
    (hl : rest.length = 256 * full + rem) : b = memRead (before ++ rest) r.pos b.length := by
  induction full generalizing pos rest before with
  | zero =>
    rw [streamPlan] at h
    split at h
    · cases h
    · cases List.mem_singleton.1 h
      rw [memRead, List.drop_left' hp, List.take_of_length_le (Nat.le_refl _)]
  | succ full ih =>
    rw [streamPlan, List.mem_cons] at h
    rcases h with h | h
    · cases h
      rw [memRead, List.drop_left' hp, List.length_take, chunkBytes, Nat.min_eq_left (by omega)]
    · have := ih (before := before ++ rest.take chunkBytes) (by
        rw [List.length_append, hp, List.length_take, chunkBytes, sourceAdvance, chunkBytes]
        omega) h (by rw [List.length_drop, chunkBytes]; omega)
      rwa [List.append_assoc, List.take_append_drop] at this

/-- The registers each transfer of a stream is made from. -/
theorem streamPlan_regs {src : StreamSource} {full rem pos : Nat} {rest : Bytes} {r : StreamRegs} {b : Bytes}
    (h : (r, b) ∈ streamPlan src full rem pos rest) :
    r.chunks ≤ full ∧ r.rem = rem ∧ ∃ k, k ≤ full ∧ r.pos = pos + k * sourceAdvance src := by
  induction full generalizing pos rest with
  | zero =>
    rw [streamPlan] at h
    split at h
    · cases h
    · cases List.mem_singleton.1 h
      exact ⟨Nat.le_refl _, rfl, 0, Nat.le_refl _, by simp⟩
  | succ full ih =>
    rw [streamPlan, List.mem_cons] at h
    rcases h with h | h
    · cases h
      exact ⟨Nat.le_refl _, rfl, 0, Nat.zero_le _, by simp⟩
    · obtain ⟨hc, hr, k, hk, hpos⟩ := ih h
      exact ⟨by omega, hr, k + 1, by omega, by rw [hpos, Nat.succ_mul]; omega⟩

/-- The registers a stream from STAGE writes: the offset is the start of STAGE (R38). -/
theorem streamTransfers_stage_pos {bytes : Bytes} {r : StreamRegs} {b : Bytes}
    (h : (r, b) ∈ streamTransfers .stage bytes) : r.pos = 0 := by
  obtain ⟨-, -, k, -, hk⟩ := streamPlan_regs h
  simpa [sourceAdvance] using hk

theorem chunksOf_eq_nil (bytes : Bytes) : chunksOf bytes = [] ↔ bytes = [] := by
  constructor
  · intro h
    have : (chunksOf bytes).length = 0 := by rw [h]; rfl
    rw [chunksOf, List.length_map, List.length_range] at this
    exact List.eq_nil_of_length_eq_zero (by omega)
  · rintro rfl
    rfl

theorem eventsOf_streamXfers (ts : List (StreamRegs × Bytes)) :
    eventsOf (ts.flatMap fun u => [.stream u.1, .xfer u.2]) = (ts.map fun t => t.2).map Event.xfer := by
  induction ts with
  | nil => rfl
  | cons t rest ih =>
    rw [List.flatMap_cons, eventsOf_append, ih]
    rfl

theorem eventsOf_streamDataActs (ts : List (StreamRegs × Bytes)) :
    eventsOf (streamDataActs ts) =
      if ts.map (fun t => t.2) = [] then [] else .dc .data :: (ts.map fun t => t.2).map Event.xfer := by
  cases ts with
  | nil => rfl
  | cons t rest =>
    rw [streamDataActs, eventsOf_cons, eventsOf_streamXfers]
    rfl

theorem eventsOf_streamActs (d : Device) (p : Params) (src : StreamSource) (bytes : Bytes) :
    eventsOf (streamActs d p src bytes) = streamEvents d p bytes := by
  unfold streamActs streamEvents
  cases p.streamFraming with
  | perStream =>
    dsimp only
    rw [eventsOf_append, eventsOf_append, eventsOf_csActs, eventsOf_csActs, eventsOf_streamDataActs,
      streamTransfers_bytes]
    simp only [chunksOf_eq_nil]
  | perChunk =>
    dsimp only
    rw [← streamTransfers_bytes src]
    generalize streamTransfers src bytes = ts
    induction ts with
    | nil => rfl
    | cons t rest ih =>
      rw [List.flatMap_cons, eventsOf_append, ih, eventsOf_cons, eventsOf_frameActs]
      rfl

/-- The stream registers a stream writes are those of its transfers. -/
theorem stream_mem_streamActs {d : Device} {p : Params} {src : StreamSource} {bytes : Bytes} {r : StreamRegs}
    (h : Act.stream r ∈ streamActs d p src bytes) : ∃ b, (r, b) ∈ streamTransfers src bytes := by
  unfold streamActs at h
  have hc : ∀ l, Act.stream r ∉ csActs d l := by intro l; unfold csActs; split <;> simp
  cases hp : p.streamFraming with
  | perStream =>
    simp only [hp, List.mem_append, hc, false_or, or_false] at h
    cases ht : streamTransfers src bytes with
    | nil => simp [ht, streamDataActs] at h
    | cons t rest =>
      rw [ht, streamDataActs] at h
      simp only [List.mem_cons, reduceCtorEq, false_or, List.mem_flatMap, Act.stream.injEq, List.not_mem_nil, or_false] at h
      obtain ⟨a, ha, rfl⟩ := h
      exact ⟨a.2, by simpa using ha⟩
  | perChunk =>
    simp only [hp, List.mem_flatMap, List.mem_cons, Act.stream.injEq] at h
    obtain ⟨a, ha, rfl | h⟩ := h
    · exact ⟨a.2, ha⟩
    · have : Act.stream r ∉ frameActs d none a.2 := by
        unfold frameActs cmdActs
        cases a.2 <;> simp [dataActs, hc]
      exact absurd h this

theorem stageFill_length (color : Half) : (stageFill color).length = 256 := by
  rw [stageFill, List.length_flatten, List.map_replicate, List.sum_replicate_nat]
  rfl

theorem take_replicate_pair (pair : Bytes) (h : pair.length = 2) (k n : Nat) (hk : k ≤ n) :
    ((List.replicate n pair).flatten).take (2 * k) = (List.replicate k pair).flatten := by
  induction k generalizing n with
  | zero => rfl
  | succ k ih =>
    obtain ⟨m, rfl⟩ : ∃ m, n = m + 1 := ⟨n - 1, by omega⟩
    rw [List.replicate_succ, List.replicate_succ, List.flatten_cons, List.flatten_cons, List.take_append, h,
      List.take_of_length_le (by omega), show 2 * (k + 1) - 2 = 2 * k by omega, ih m (by omega)]

theorem fillBytes_eq (color : Half) (n : Nat) : fillBytes color n = pixelBytes color n := by
  have hp : (colorBytes color).length = 2 := rfl
  rw [fillBytes, stageFill, take_replicate_pair _ hp _ _ (by rw [stagePixels]; omega), pixelBytes, ← be16_eq_be16Z,
    colorBytes]
  have hf : ∀ k, (List.replicate k (List.replicate stagePixels (be16 color)).flatten).flatten =
      (List.replicate (k * stagePixels) (be16 color)).flatten := by
    intro k
    induction k with
    | zero => rw [Nat.zero_mul]; rfl
    | succ k ih =>
      rw [List.replicate_succ, List.flatten_cons, ih, Nat.succ_mul, Nat.add_comm, ← List.replicate_append_replicate,
        List.flatten_append]
  rw [hf, ← List.flatten_append, List.replicate_append_replicate, Nat.mul_comm, Nat.div_add_mod]

theorem eventsOf_sfillActs (d : Device) (p : Params) (color : Half) (count : Int) :
    eventsOf (sfillActs d p color count) = sfillEvents d p color count := by
  rw [sfillActs, eventsOf_cons, eventsOf_streamActs, fillBytes_eq]
  rfl

/-! Drawing. -/

theorem eventsOf_blitActs (d : Device) (p : Params) (x y w h : Int) (buf : Bytes) :
    eventsOf (blitActs d p x y w h buf) =
      setwinEvents d p x y (x + w - 1) (y + h - 1) ++
        streamEvents d p (buf.take (min (buf.length : Int) (w * h * 2)).toNat) := by
  rw [blitActs, eventsOf_append, eventsOf_setwinActs, eventsOf_streamActs]
  rfl

theorem eventsOf_pixelActs (d : Device) (p : Params) (x y : Int) (color : Half) :
    eventsOf (pixelActs d p x y color) = pixelEvents d p x y color := by
  rw [pixelActs, eventsOf_append, eventsOf_setwinActs, eventsOf_streamActs, colorBytes, be16_eq_be16Z]
  rfl

theorem eventsOf_hlineActs (d : Device) (p : Params) (x y len : Int) (color : Half) :
    eventsOf (hlineActs d p x y len color) = hlineEvents d p x y len color := by
  rw [hlineActs, eventsOf_append, eventsOf_setwinActs, eventsOf_sfillActs]
  rfl

theorem eventsOf_vlineActs (d : Device) (p : Params) (x y len : Int) (color : Half) :
    eventsOf (vlineActs d p x y len color) = vlineEvents d p x y len color := by
  rw [vlineActs, eventsOf_append, eventsOf_setwinActs, eventsOf_sfillActs]
  rfl

theorem eventsOf_frectActs (d : Device) (p : Params) (x y w h : Int) (color : Half) :
    eventsOf (frectActs d p x y w h color) = frectEvents d p x y w h color := by
  rw [frectActs, eventsOf_append, eventsOf_setwinActs, eventsOf_sfillActs]
  rfl

theorem eventsOf_lineCallActs (d : Device) (p : Params) (color : Half) (c : LineCall) :
    eventsOf (lineCallActs d p color c) = lineCallEvents d p color c := by
  cases c
  · exact eventsOf_pixelActs ..
  · exact eventsOf_hlineActs ..
  · exact eventsOf_vlineActs ..

theorem eventsOf_lineActs (d : Device) (p : Params) (x0 y0 x1 y1 : Int) (color : Half) :
    eventsOf (lineActs d p x0 y0 x1 y1 color) =
      (lineCalls x0 y0 x1 y1).flatMap (lineCallEvents d p color) := by
  rw [lineActs, lineCalls]
  generalize linePlan x0 y0 x1 y1 = plan
  induction plan with
  | nil => rfl
  | cons t rest ih =>
    rw [List.flatMap_cons, eventsOf_append, ih, linePointActs, eventsOf_cons]
    rcases t with ⟨r, _ | c⟩
    · rfl
    · exact congrArg (· ++ _) (eventsOf_lineCallActs d p color c)

/-! Which of these write only transient state (and so keep the Device and the ghosts). -/

theorem quiet_append {a b : List Act} (ha : Quiet a) (hb : Quiet b) : Quiet (a ++ b) := by
  simp_all [Quiet]

theorem quiet_flatMap {α : Type} {xs : List α} {f : α → List Act} (h : ∀ x, Quiet (f x)) : Quiet (xs.flatMap f) := by
  induction xs with
  | nil => rfl
  | cons x rest ih => exact quiet_append (h x) ih

theorem quiet_csActs (d : Device) (l : Level) : Quiet (csActs d l) := by
  unfold csActs
  split <;> rfl

theorem quiet_frameActs (d : Device) (cmd : Option Byte) (data : Bytes) : Quiet (frameActs d cmd data) := by
  refine quiet_append (quiet_append (quiet_append (quiet_csActs d .low) ?_) ?_) (quiet_csActs d .high)
  · cases cmd <;> rfl
  · cases data <;> rfl

theorem quiet_sendActs (d : Device) (c : Byte) (data : Bytes) (h1 : sleepAfter c = none) (h2 : displayAfter c = none) :
    Quiet (sendActs d (some c) data) := by
  rw [sendActs, ghostActs, h1, h2]
  exact quiet_append (quiet_frameActs d _ data) rfl

theorem quiet_setwinActs (d : Device) (p : Params) (x0 y0 x1 y1 : Int) : Quiet (setwinActs d p x0 y0 x1 y1) := by
  unfold setwinActs
  split
  · exact quiet_append (quiet_append (quiet_sendActs d _ _ (by decide) (by decide))
      (quiet_sendActs d _ _ (by decide) (by decide))) (quiet_sendActs d _ _ (by decide) (by decide))
  · rfl

theorem quiet_streamActs (d : Device) (p : Params) (src : StreamSource) (bytes : Bytes) :
    Quiet (streamActs d p src bytes) := by
  unfold streamActs
  split
  · refine quiet_append (quiet_append (quiet_csActs d .low) ?_) (quiet_csActs d .high)
    cases streamTransfers src bytes with
    | nil => rfl
    | cons t rest => exact quiet_cons.2 ⟨rfl, quiet_flatMap fun _ => rfl⟩
  · exact quiet_flatMap fun u => quiet_cons.2 ⟨rfl, quiet_frameActs d none u.2⟩

theorem quiet_sfillActs (d : Device) (p : Params) (color : Half) (count : Int) : Quiet (sfillActs d p color count) :=
  quiet_cons.2 ⟨rfl, quiet_streamActs d p _ _⟩

theorem quiet_blitActs (d : Device) (p : Params) (x y w h : Int) (buf : Bytes) :
    Quiet (blitActs d p x y w h buf) := quiet_append (quiet_setwinActs ..) (quiet_streamActs ..)

theorem quiet_pixelActs (d : Device) (p : Params) (x y : Int) (color : Half) :
    Quiet (pixelActs d p x y color) := quiet_append (quiet_setwinActs ..) (quiet_streamActs ..)

theorem quiet_hlineActs (d : Device) (p : Params) (x y len : Int) (color : Half) :
    Quiet (hlineActs d p x y len color) := quiet_append (quiet_setwinActs ..) (quiet_sfillActs ..)

theorem quiet_vlineActs (d : Device) (p : Params) (x y len : Int) (color : Half) :
    Quiet (vlineActs d p x y len color) := quiet_append (quiet_setwinActs ..) (quiet_sfillActs ..)

theorem quiet_frectActs (d : Device) (p : Params) (x y w h : Int) (color : Half) :
    Quiet (frectActs d p x y w h color) := quiet_append (quiet_setwinActs ..) (quiet_sfillActs ..)

theorem quiet_rectActs (d : Device) (p : Params) (x y w h : Int) (color : Half) :
    Quiet (rectActs d p x y w h color) :=
  quiet_append (quiet_append (quiet_append (quiet_hlineActs ..) (quiet_vlineActs ..)) (quiet_hlineActs ..))
    (quiet_vlineActs ..)

theorem quiet_lineActs (d : Device) (p : Params) (x0 y0 x1 y1 : Int) (color : Half) :
    Quiet (lineActs d p x0 y0 x1 y1 color) := by
  refine quiet_flatMap fun t => quiet_cons.2 ⟨rfl, ?_⟩
  rcases t with ⟨r, _ | c⟩
  · rfl
  · cases c
    · exact quiet_pixelActs ..
    · exact quiet_hlineActs ..
    · exact quiet_vlineActs ..

/-- A request that drives quiet actions, all transfers succeeding: what it leaves. -/
theorem draws_of_quiet {i : Instr} {s : State} {l : Latches} {acts : List Act}
    (hx : exec i s = drive acts (acceptRequest l s)) (hq : Quiet acts)
    (hb : BusOk s (xferCount (eventsOf acts))) : Draws i s (eventsOf acts) := by
  refine ⟨_, hx.trans (drive_of_busOk acts _ hb), completed_applyActs acts s l, ⟨?_, ?_⟩, ?_, ?_, ?_⟩
  · simpa using applyActs_device_of_quiet acts (acceptRequest l s) hq
  · simp
  · simpa using applyActs_gLife_of_quiet acts (acceptRequest l s) hq
  · simpa using applyActs_gSleep_of_quiet acts (acceptRequest l s) hq
  · simpa using applyActs_gDisp_of_quiet acts (acceptRequest l s) hq

end Sys2Proof
end

