-- ==== Sys2Proof/Laws/Exec.lean ====
section
/-! SUPPORT. All that one instruction and one step can do, said once: an instruction drives the actions of its rule, or only
produces a record, or constructs or drops the Device (CONFIG). Every statement about all instructions splits on this. -/

namespace Sys2Proof

open Machine

/-- The actions an instruction drives on a Device; none for the requests that drive none there. -/
def actsOf (p : Params) (d : Device) : Instr → Option (List Act)
  | .config _ => none
  | .pack565 _ _ _ => none
  | .expbmp _ _ _ _ _ => none
  | .send cmd data => some (sendActs d cmd data)
  | .setwin x0 y0 x1 y1 => some (setwinActs d p (sext16 x0) (sext16 y0) (sext16 x1) (sext16 y1))
  | .sfill color count => some (sfillActs d p color (sext32 count))
  | .blit x y w h buf => some (blitActs d p (sext16 x) (sext16 y) (sext16 w) (sext16 h) buf)
  | .pixel x y color => some (pixelActs d p (sext16 x) (sext16 y) color)
  | .hline x y len color => some (hlineActs d p (sext16 x) (sext16 y) (sext16 len) color)
  | .vline x y len color => some (vlineActs d p (sext16 x) (sext16 y) (sext16 len) color)
  | .line x0 y0 x1 y1 color => some (lineActs d p (sext16 x0) (sext16 y0) (sext16 x1) (sext16 y1) color)
  | .rect x y w h color => some (rectActs d p (sext16 x) (sext16 y) (sext16 w) (sext16 h) color)
  | .frect x y w h color => some (frectActs d p (sext16 x) (sext16 y) (sext16 w) (sext16 h) color)
  | .fill color => some (fillActs d p color)
  | .hreset => some (hresetActs d)
  | .sreset => some (sresetActs d)
  | .init => some (initActs d p)
  | .sleep en => some (if en then slpinActs d else slpoutActs d)
  | .invert en => some (if en then invonActs d else invoffActs d)
  | .blon => some (backlightActs d .high)
  | .bloff => some (backlightActs d .low)
  | .rotate n => if d.rotCap then some (rotateActs d p (sext16 n)) else none
  | .getrot => none
  | .getdim => none
  | .swreset => some (swresetActs d)
  | .slpin => some (slpinActs d)
  | .slpout => some (slpoutActs d)
  | .noron => some (noronActs d)
  | .invoff => some (invoffActs d)
  | .invon => some (invonActs d)
  | .dispon => some (disponActs d)
  | .caset xs xe => some (casetActs d xs xe)
  | .raset ys ye => some (rasetActs d ys ye)
  | .ramwr => some (ramwrActs d)
  | .madctl v => some (madctlActs d v)
  | .colmod v => some (colmodActs d v)

theorem exec_rotate (n : Half) (s : State) :
    exec (.rotate n) s = withDevice (latchesOf (.rotate n)) s fun d t =>
      whenRotCapable d t fun u => drive (rotateActs d s.params (sext16 n)) u := rfl

theorem exec_getrot (s : State) :
    exec .getrot s = withDevice (latchesOf .getrot) s fun d t =>
      whenRotCapable d t fun u => succeed (.rotation d.rotation) u := rfl

/-- An instruction with actions drives them. -/
theorem exec_of_acts {i : Instr} {s : State} {d : Device} {acts : List Act} (hd : s.device = some d)
    (ha : actsOf s.params d i = some acts) : exec i s = drive acts (acceptRequest (latchesOf i) s) := by
  cases i <;> rw [actsOf] at ha
  case rotate n =>
    split at ha
    · rename_i hr
      cases ha
      rw [exec_rotate, withDevice_some hd, whenRotCapable_true hr]
    · cases ha
  all_goals first | cases ha; done | (cases ha; exact withDevice_some hd)

/-- The record of an instruction that does nothing else. -/
theorem exec_of_no_acts {i : Instr} {s : State} (hc : ∀ f, i ≠ .config f)
    (h : ∀ d, s.device = some d → actsOf s.params d i = none) :
    ∃ st v, exec i s = .next (recorded s st v) ∧ st ≠ .busError ∧ (st ≠ .ok → v = .empty) := by
  have none' : ∀ {l k}, s.device = none → exec i s = withDevice l s k →
      ∃ st v, exec i s = .next (recorded s st v) ∧ st ≠ .busError ∧ (st ≠ .ok → v = .empty) :=
    fun hn hx => ⟨.notConstructed, .empty, hx.trans (withDevice_none hn), by decide, fun _ => rfl⟩
  cases i with
  | config f => exact absurd rfl (hc f)
  | pack565 r g b => exact ⟨.ok, _, rfl, by decide, fun hne => absurd rfl hne⟩
  | expbmp width fg bg olen src =>
    change ∃ st v, execExpbmp width fg bg olen src s = _ ∧ _
    unfold execExpbmp
    dsimp only
    split
    · exact ⟨.badOperand, .empty, rfl, by decide, fun _ => rfl⟩
    · split
      · exact ⟨.badOperand, .empty, rfl, by decide, fun _ => rfl⟩
      · exact ⟨.ok, _, rfl, by decide, fun hne => absurd rfl hne⟩
  | getrot =>
    cases hd : s.device with
    | none => exact none' hd (exec_getrot s)
    | some d =>
      cases hr : d.rotCap with
      | true =>
        refine ⟨.ok, .rotation d.rotation, ?_, by decide, fun hne => absurd rfl hne⟩
        rw [exec_getrot, withDevice_some hd, whenRotCapable_true hr]
        rfl
      | false =>
        refine ⟨.illegalRequest, .empty, ?_, by decide, fun _ => rfl⟩
        rw [exec_getrot, withDevice_some hd, whenRotCapable_false hr]
        rfl
  | getdim =>
    cases hd : s.device with
    | none => exact none' (l := latchesOf .getdim) hd rfl
    | some d => exact ⟨.ok, _, withDevice_some hd, by decide, fun hne => absurd rfl hne⟩
  | rotate n =>
    cases hd : s.device with
    | none => exact none' hd (exec_rotate n s)
    | some d =>
      have hr : d.rotCap = false := by
        have := h d hd
        rw [actsOf] at this
        split at this
        · cases this
        · simp_all
      refine ⟨.illegalRequest, .empty, ?_, by decide, fun _ => rfl⟩
      rw [exec_rotate, withDevice_some hd, whenRotCapable_false hr]
      rfl
  | _ =>
    cases hd : s.device with
    | none => exact ⟨.notConstructed, .empty, withDevice_none hd, by decide, fun _ => rfl⟩
    | some d => exact absurd (h d hd) (by simp [actsOf])

/-- All that CONFIG can do (R230): fail and leave no Device, or construct one of positive size. -/
theorem execConfig_cases (f : ConfigFields) (s : State) :
    (∃ st, (st = .constructLines ∨ st = .constructGeometry) ∧
        exec (.config f) s = .next { recorded s st .empty with device := none }) ∨
      ∃ o, configOrigin s.params f = some o ∧ f.width ≠ 0 ∧ f.height ≠ 0 ∧
        exec (.config f) s = .next (constructDevice (configDevice f o) (recorded s .ok .empty)) := by
  change (∃ st, _ ∧ execConfig f s = _) ∨ ∃ o, _ ∧ _ ∧ _ ∧ execConfig f s = _
  unfold execConfig
  dsimp only
  split
  · exact .inl ⟨.constructLines, .inl rfl, rfl⟩
  · split
    · exact .inl ⟨.constructGeometry, .inr rfl, rfl⟩
    · rename_i hwh
      cases ho : configOrigin s.params f with
      | none => exact .inl ⟨.constructGeometry, .inr rfl, rfl⟩
      | some o => exact .inr ⟨o, rfl, fun e => hwh (.inl e), fun e => hwh (.inr e), rfl⟩

/-- All that an instruction can do. -/
theorem exec_cases (i : Instr) (s : State) :
    (∃ d acts, s.device = some d ∧ actsOf s.params d i = some acts ∧
        exec i s = drive acts (acceptRequest (latchesOf i) s)) ∨
      ((∀ f, i ≠ .config f) ∧ (∀ d, s.device = some d → actsOf s.params d i = none) ∧
        ∃ st v, exec i s = .next (recorded s st v) ∧ st ≠ .busError ∧ (st ≠ .ok → v = .empty)) ∨
      ∃ f, i = .config f := by
  by_cases hc : ∃ f, i = .config f
  · exact .inr (.inr hc)
  · have hc' : ∀ f, i ≠ .config f := fun f e => hc ⟨f, e⟩
    cases hd : s.device with
    | none =>
      have h : ∀ d, s.device = some d → actsOf s.params d i = none := by
        intro d e
        rw [hd] at e
        cases e
      exact .inr (.inl ⟨hc', (fun d e => nomatch e), exec_of_no_acts hc' h⟩)
    | some d =>
      cases ha : actsOf s.params d i with
      | some acts => exact .inl ⟨d, acts, rfl, ha, exec_of_acts hd ha⟩
      | none =>
        have h : ∀ d', s.device = some d' → actsOf s.params d' i = none := by
          intro d' e
          rw [hd] at e
          cases e
          exact ha
        exact .inr (.inl ⟨hc', fun d' e => by cases e; exact ha, exec_of_no_acts hc' h⟩)

/-- The ghosts after an instruction of another status than OK that does not reset the panel (R277). -/
theorem ghostsFollow_of_not_ok {i : Instr} {s t : State} {r : Record} (h : r.status ≠ .ok) :
    GhostsFollow i s t r ↔ KeepsGhosts s t := by
  rw [GhostsFollow, if_neg h]

/-- The ghosts after an instruction that sends no command byte as a frame of its own and does not reset the panel. -/
theorem ghostsFollow_of_keeps {i : Instr} {s t : State} {r : Record} (hi : frameCommand i = none) :
    GhostsFollow i s t r ↔ KeepsGhosts s t := by
  rw [GhostsFollow, hi]
  split
  · rfl
  · rfl

/-- All that a step can do (R31, R262, R293, R300): wait, refuse a rejected descriptor, or run the request decoded. -/
theorem step_cases (s : State) :
    step s = .next s ∨
      (∃ b r, s.busy = false ∧ s.requests[s.rp]? = some b ∧ decode b = .rejected r ∧
        step s = .next (recorded s .illegalRequest .empty)) ∨
      ∃ b i, s.busy = false ∧ s.requests[s.rp]? = some b ∧ decode b = .instr i ∧ step s = exec i s := by
  unfold step
  split
  · exact .inl rfl
  · rename_i hb
    have hb' : s.busy = false := by simpa using hb
    unfold presented
    cases hp : s.requests[s.rp]? with
    | none => exact .inl rfl
    | some b =>
      dsimp only
      cases hd : decode b with
      | instr i => exact .inr (.inr ⟨b, i, hb', rfl, hd, rfl⟩)
      | rejected r => exact .inr (.inl ⟨b, r, hb', rfl, hd, rfl⟩)

end Sys2Proof
end

