-- ==== Sys2Proof/Laws/PerInstr.lean ====
section
/-! SUPPORT. Statements per instruction. EncodeHead: an encoding begins with its opcode or command byte, and its length is
what that first byte and the buffer say (30_encoding.md R100, R91). -/

namespace Sys2Proof.Laws

/-- The length of an instruction's inline buffer (R106, R107). -/
def EncodeHead.bufferLength : Instr → Nat
  | .expbmp _ _ _ _ src => src.length
  | .send _ data => data.length
  | .blit _ _ _ _ buf => buf.length
  | _ => 0

/-- The first byte of the encoding fixes the rest's length: by the format of a request (R110), by the payload of a wire
frame (R91). -/
def EncodeHead.Statement (i : Instr) : Prop :=
  ∃ op rest, encode i = op :: rest ∧
    if i.isRequest = true then
      ∃ f, formatOf op = some f ∧ rest.length + 1 = f.fixedLength + EncodeHead.bufferLength i
    else payloadLength op = some rest.length

@[simp] theorem length_be16 (v : Half) : (be16 v).length = 2 := rfl

@[simp] theorem length_be32 (v : Quad) : (be32 v).length = 4 := rfl

@[simp] theorem length_lengthField (b : Bytes) : (lengthField b).length = 4 := rfl

theorem EncodeHead.config (f : ConfigFields) : Statement (.config f) := ⟨_, _, rfl, _, rfl, rfl⟩

theorem EncodeHead.pack565 (r : Byte) (g : Byte) (b : Byte) : Statement (.pack565 r g b) := ⟨_, _, rfl, _, rfl, rfl⟩

theorem EncodeHead.expbmp (width : Half) (fg : Half) (bg : Half) (olen : Quad) (src : Bytes) : Statement (.expbmp width fg bg olen src) :=
  ⟨_, _, rfl, .eb, rfl, by simp [bufferLength, Format.fixedLength]; omega⟩

theorem EncodeHead.send (cmd : Option Byte) (data : Bytes) : Statement (.send cmd data) := by
  cases cmd with
  | none => exact ⟨_, _, rfl, .sd, rfl, by simp [bufferLength, Format.fixedLength]; omega⟩
  | some c => exact ⟨_, _, rfl, .sd, rfl, by simp [bufferLength, Format.fixedLength]; omega⟩

theorem EncodeHead.setwin (x0 : Half) (y0 : Half) (x1 : Half) (y1 : Half) : Statement (.setwin x0 y0 x1 y1) := ⟨_, _, rfl, _, rfl, rfl⟩

theorem EncodeHead.sfill (color : Half) (count : Quad) : Statement (.sfill color count) := ⟨_, _, rfl, _, rfl, rfl⟩

theorem EncodeHead.blit (x : Half) (y : Half) (w : Half) (h : Half) (buf : Bytes) : Statement (.blit x y w h buf) :=
  ⟨_, _, rfl, .bl, rfl, by simp [bufferLength, Format.fixedLength]; omega⟩

theorem EncodeHead.pixel (x : Half) (y : Half) (color : Half) : Statement (.pixel x y color) := ⟨_, _, rfl, _, rfl, rfl⟩

theorem EncodeHead.hline (x : Half) (y : Half) (len : Half) (color : Half) : Statement (.hline x y len color) := ⟨_, _, rfl, _, rfl, rfl⟩

theorem EncodeHead.vline (x : Half) (y : Half) (len : Half) (color : Half) : Statement (.vline x y len color) := ⟨_, _, rfl, _, rfl, rfl⟩

theorem EncodeHead.line (x0 : Half) (y0 : Half) (x1 : Half) (y1 : Half) (color : Half) : Statement (.line x0 y0 x1 y1 color) := ⟨_, _, rfl, _, rfl, rfl⟩

theorem EncodeHead.rect (x : Half) (y : Half) (w : Half) (h : Half) (color : Half) : Statement (.rect x y w h color) := ⟨_, _, rfl, _, rfl, rfl⟩

theorem EncodeHead.frect (x : Half) (y : Half) (w : Half) (h : Half) (color : Half) : Statement (.frect x y w h color) := ⟨_, _, rfl, _, rfl, rfl⟩

theorem EncodeHead.fill (color : Half) : Statement (.fill color) := ⟨_, _, rfl, _, rfl, rfl⟩

theorem EncodeHead.hreset : Statement .hreset := ⟨_, _, rfl, _, rfl, rfl⟩

theorem EncodeHead.sreset : Statement .sreset := ⟨_, _, rfl, _, rfl, rfl⟩

theorem EncodeHead.init : Statement .init := ⟨_, _, rfl, _, rfl, rfl⟩

theorem EncodeHead.sleep (en : Bool) : Statement (.sleep en) := ⟨_, _, rfl, _, rfl, rfl⟩

theorem EncodeHead.invert (en : Bool) : Statement (.invert en) := ⟨_, _, rfl, _, rfl, rfl⟩

theorem EncodeHead.blon : Statement .blon := ⟨_, _, rfl, _, rfl, rfl⟩

theorem EncodeHead.bloff : Statement .bloff := ⟨_, _, rfl, _, rfl, rfl⟩

theorem EncodeHead.rotate (n : Half) : Statement (.rotate n) := ⟨_, _, rfl, _, rfl, rfl⟩

theorem EncodeHead.getrot : Statement .getrot := ⟨_, _, rfl, _, rfl, rfl⟩

theorem EncodeHead.getdim : Statement .getdim := ⟨_, _, rfl, _, rfl, rfl⟩

theorem EncodeHead.swreset : Statement .swreset := ⟨_, _, rfl, rfl⟩

theorem EncodeHead.slpin : Statement .slpin := ⟨_, _, rfl, rfl⟩

theorem EncodeHead.slpout : Statement .slpout := ⟨_, _, rfl, rfl⟩

theorem EncodeHead.noron : Statement .noron := ⟨_, _, rfl, rfl⟩

theorem EncodeHead.invoff : Statement .invoff := ⟨_, _, rfl, rfl⟩

theorem EncodeHead.invon : Statement .invon := ⟨_, _, rfl, rfl⟩

theorem EncodeHead.dispon : Statement .dispon := ⟨_, _, rfl, rfl⟩

theorem EncodeHead.caset (xs : Half) (xe : Half) : Statement (.caset xs xe) := ⟨_, _, rfl, rfl⟩

theorem EncodeHead.raset (ys : Half) (ye : Half) : Statement (.raset ys ye) := ⟨_, _, rfl, rfl⟩

theorem EncodeHead.ramwr : Statement .ramwr := ⟨_, _, rfl, rfl⟩

theorem EncodeHead.madctl (v : Byte) : Statement (.madctl v) := ⟨_, _, rfl, rfl⟩

theorem EncodeHead.colmod (v : Byte) : Statement (.colmod v) := ⟨_, _, rfl, rfl⟩

end Sys2Proof.Laws
end

