-- ==== Sys2Proof/Tests/Slice0.lean ====
section
/-! SUPPORT. Tests of the model against words and traces written out in 95_test_vectors.md (the vector is named at each),
the smoke test of WellFormed, and for every statement with hypotheses a state and operands that meet them. -/

namespace Sys2Proof.Tests

open Machine

/-! Helpers: the devices of 95_test_vectors.md, states, one step. -/

def devA : Device := ⟨240, 240, 0, 0, true, true, false, 0, 0⟩
def devB : Device := ⟨135, 240, 52, 40, true, true, true, 0, 0⟩
def devC : Device := ⟨128, 160, 2, 1, false, false, false, 0, 0⟩
def tiny : Device := ⟨2, 1, 0, 0, false, false, true, 1, 0⟩

/-- A state with a Device, the parameters P0 and a bus that never fails in the test. -/
def ready (d : Device) : State :=
  { State.reset with device := some d, params := Params.p0, busScript := List.replicate 40 .ok }

/-- The same with a bus that fails at the transfer numbered `k`. -/
def failing (d : Device) (k : Nat) : State := { ready d with busScript := List.replicate k .ok ++ [.fail] }

def perChunk (s : State) : State := { s with params := { s.params with streamFraming := .perChunk } }

def rejecting (s : State) : State := { s with params := { s.params with negCoordPolicy := .reject } }

def presenting (s : State) (b : Bytes) : State := { s with requests := [b] }

def nextOf : Host.Outcome State Fault Refusal → State
  | .next t => t
  | _ => State.reset

def isNext : Host.Outcome State Fault Refusal → Bool
  | .next _ => true
  | _ => false

theorem eq_next_of_isNext {o : Host.Outcome State Fault Refusal} (h : isNext o = true) : o = .next (nextOf o) := by
  cases o <;> first | rfl | cases h

/-- The state after one step on a descriptor. -/
def ran (s : State) (b : Bytes) : State := nextOf (step (presenting s b))

/-- The bytes of the record the step produced (R117). -/
def answered (s : State) (b : Bytes) : Bytes := (ran s b).records.flatMap recordBytes

def cs0 : Event := .cs .low
def cs1 : Event := .cs .high
def cmdByte (c : Byte) : List Event := [.dc .cmd, .xfer [c]]
def dataBytes (b : Bytes) : List Event := [.dc .data, .xfer b]

/-- `win(...)` of 95_test_vectors.md. -/
def win (xs ys : Bytes) : List Event :=
  [cs0] ++ cmdByte 0x2A ++ dataBytes xs ++ [cs1, cs0] ++ cmdByte 0x2B ++ dataBytes ys ++ [cs1, cs0] ++ cmdByte 0x2C ++ [cs1]

/-! WellFormed refuses an ill-formed term for each of its checks. -/

theorem smoke_config_rot : (Instr.config ⟨true, true, true, true, false, false, 240, 240, 1, 0, 0⟩).wf = false := by decide

theorem smoke_config_xorg : (Instr.config ⟨true, true, true, true, false, false, 240, 240, 0, 5, 0⟩).wf = false := by decide

theorem smoke_config_yorg : (Instr.config ⟨true, true, true, true, false, false, 240, 240, 0, 0, 5⟩).wf = false := by decide

theorem smoke_send_length : (Instr.send none (List.replicate 4294967296 0)).wf = false := by
  simp only [Instr.wf, fitsLength, List.length_replicate]
  decide

theorem smoke_blit_length : (Instr.blit 0 0 1 1 (List.replicate 4294967296 0)).wf = false := by
  simp only [Instr.wf, fitsLength, List.length_replicate]
  decide

theorem smoke_expbmp_length : (Instr.expbmp 1 0 0 0 (List.replicate 4294967296 0)).wf = false := by
  simp only [Instr.wf, fitsLength, List.length_replicate]
  decide

theorem smoke_wellformed : (Instr.config ⟨true, true, true, true, true, true, 240, 240, 1, 5, 5⟩).wf = true := by decide

/-! Decoding: the words of 95_test_vectors.md "Descriptor encodings, one per request"; the frames from R91, R92, R97. -/

theorem test_word_config : decode [0x01, 0x2F, 0x00, 0x87, 0x00, 0xF0, 0x00, 0x01, 0x00, 0x00, 0x00, 0x00] =
    .instr (.config ⟨true, true, true, true, false, true, 135, 240, 1, 0, 0⟩) := by decide

theorem test_word_config_origin : decode [0x01, 0x13, 0x00, 0x80, 0x00, 0xA0, 0x00, 0x00, 0x00, 0x02, 0x00, 0x01] =
    .instr (.config ⟨true, true, false, false, true, false, 128, 160, 0, 2, 1⟩) := by decide

theorem test_word_pack565 : decode [0x10, 0x12, 0x34, 0x56] = .instr (.pack565 0x12 0x34 0x56) := by decide

theorem test_word_expbmp :
    decode [0x11, 0x00, 0x04, 0xF8, 0x00, 0x00, 0x1F, 0x00, 0x00, 0x00, 0x08, 0x00, 0x00, 0x00, 0x01, 0xB0] =
      .instr (.expbmp 4 0xF800 0x001F 8 [0xB0]) := by decide

theorem test_word_send : decode [0x20, 0x01, 0x2A, 0x00, 0x00, 0x00, 0x04, 0x00, 0x00, 0x00, 0xEF] =
    .instr (.send (some 0x2A) [0x00, 0x00, 0x00, 0xEF]) := by decide

/-- Vector F3. -/
theorem test_word_send_data : decode [0x20, 0x00, 0x00, 0x00, 0x00, 0x00, 0x02, 0xF8, 0x00] =
    .instr (.send none [0xF8, 0x00]) := by decide

theorem test_word_setwin : decode [0x30, 0x00, 0x00, 0x00, 0x00, 0x00, 0xEF, 0x00, 0xEF] = .instr (.setwin 0 0 239 239) := by
  decide

theorem test_word_sfill : decode [0x40, 0x07, 0xE0, 0x00, 0x00, 0x01, 0x2C] = .instr (.sfill 0x07E0 300) := by decide

theorem test_word_blit :
    decode [0x41, 0x00, 0x0A, 0x00, 0x14, 0x00, 0x02, 0x00, 0x02, 0x00, 0x00, 0x00, 0x0A, 0x01, 0x02, 0x03, 0x04, 0x05, 0x06,
      0x07, 0x08, 0x09, 0x0A] = .instr (.blit 10 20 2 2 [1, 2, 3, 4, 5, 6, 7, 8, 9, 10]) := by decide

theorem test_word_pixel : decode [0x50, 0x00, 0x0A, 0x00, 0x14, 0xF8, 0x00] = .instr (.pixel 10 20 0xF800) := by decide

theorem test_word_hline : decode [0x51, 0x00, 0x00, 0x00, 0x00, 0x00, 0x05, 0x12, 0x34] = .instr (.hline 0 0 5 0x1234) := by
  decide

theorem test_word_vline : decode [0x52, 0x00, 0x00, 0x00, 0x00, 0x00, 0x05, 0x12, 0x34] = .instr (.vline 0 0 5 0x1234) := by
  decide

theorem test_word_line : decode [0x53, 0x00, 0x00, 0x00, 0x00, 0x00, 0x05, 0x00, 0x02, 0xFF, 0xFF] =
    .instr (.line 0 0 5 2 0xFFFF) := by decide

theorem test_word_rect : decode [0x54, 0x00, 0x0A, 0x00, 0x0A, 0x00, 0x03, 0x00, 0x02, 0x00, 0x1F] =
    .instr (.rect 10 10 3 2 0x001F) := by decide

theorem test_word_frect : decode [0x55, 0x00, 0x00, 0x00, 0x00, 0x00, 0x14, 0x00, 0x0F, 0xFF, 0xFF] =
    .instr (.frect 0 0 20 15 0xFFFF) := by decide

theorem test_word_fill : decode [0x56, 0x00, 0x00] = .instr (.fill 0) := by decide
theorem test_word_hreset : decode [0x60] = .instr .hreset := by decide
theorem test_word_sreset : decode [0x61] = .instr .sreset := by decide
theorem test_word_init : decode [0x62] = .instr .init := by decide
theorem test_word_sleep : decode [0x63, 0x01] = .instr (.sleep true) := by decide
theorem test_word_invert : decode [0x64, 0x00] = .instr (.invert false) := by decide
theorem test_word_blon : decode [0x65] = .instr .blon := by decide
theorem test_word_bloff : decode [0x66] = .instr .bloff := by decide
theorem test_word_rotate : decode [0x67, 0xFF, 0xFF] = .instr (.rotate (-1)) := by decide
theorem test_word_getrot : decode [0x68] = .instr .getrot := by decide
theorem test_word_getdim : decode [0x69] = .instr .getdim := by decide
theorem test_frame_swreset : decodeFrame [0x01] = .instr .swreset := by decide
theorem test_frame_slpin : decodeFrame [0x10] = .instr .slpin := by decide
theorem test_frame_slpout : decodeFrame [0x11] = .instr .slpout := by decide
theorem test_frame_noron : decodeFrame [0x13] = .instr .noron := by decide
theorem test_frame_invoff : decodeFrame [0x20] = .instr .invoff := by decide
theorem test_frame_invon : decodeFrame [0x21] = .instr .invon := by decide
theorem test_frame_dispon : decodeFrame [0x29] = .instr .dispon := by decide
/-- The bounds of vector W2. -/
theorem test_frame_caset : decodeFrame [0x2A, 0x00, 0x34, 0x00, 0xBA] = .instr (.caset 0x34 0xBA) := by decide
theorem test_frame_raset : decodeFrame [0x2B, 0x00, 0x28, 0x01, 0x17] = .instr (.raset 0x28 0x117) := by decide
theorem test_frame_ramwr : decodeFrame [0x2C] = .instr .ramwr := by decide
theorem test_frame_madctl : decodeFrame [0x36, 0x60] = .instr (.madctl 0x60) := by decide
theorem test_frame_colmod : decodeFrame [0x3A, 0x55] = .instr (.colmod 0x55) := by decide

/-- Vectors E1 to E4, E6 to E8, E9 to E11. -/
theorem test_illegal_words :
    decode [0x00] = .rejected .reservedOpcode ∧ decode [0x6A] = .rejected .reservedOpcode ∧ decode [] = .rejected .noOpcode ∧
      decode [0x60, 0x00] = .rejected .badLength ∧ decode [0x50, 0x00, 0x0A, 0x00, 0x14, 0xF8] = .rejected .badLength ∧
      decode [0x63, 0x02] = .rejected .reservedField ∧
      decode [0x20, 0x02, 0x00, 0x00, 0x00, 0x00, 0x00] = .rejected .reservedField ∧
      decode [0x20, 0x00, 0x2A, 0x00, 0x00, 0x00, 0x00] = .rejected .reservedField ∧
      decode [0x01, 0x4F, 0x00, 0xF0, 0x00, 0xF0, 0x00, 0x00, 0x00, 0x00, 0x00, 0x00] = .rejected .reservedField ∧
      decode [0x01, 0x0F, 0x00, 0xF0, 0x00, 0xF0, 0x00, 0x01, 0x00, 0x00, 0x00, 0x00] = .rejected .reservedField ∧
      decode [0x01, 0x0F, 0x00, 0xF0, 0x00, 0xF0, 0x00, 0x00, 0x00, 0x05, 0x00, 0x00] = .rejected .reservedField := by
  decide

/-! One step each. -/

/-- Vector L1. -/
theorem test_config : (ran { State.reset with params := Params.p0 }
    [0x01, 0x0F, 0x00, 0xF0, 0x00, 0xF0, 0x00, 0x00, 0x00, 0x00, 0x00, 0x00]).device = some devA := by decide +kernel

/-- Vector L4: the old Device is gone. -/
theorem test_config_lines :
    let t := ran (ready devA) [0x01, 0x06, 0x00, 0xF0, 0x00, 0xF0, 0x00, 0x00, 0x00, 0x00, 0x00, 0x00]
    t.device = none ∧ t.records.flatMap recordBytes = [0x03] := by decide +kernel

/-- Vectors K3 and E15: no Device needed. -/
theorem test_pack565 : answered State.reset [0x10, 0x12, 0x34, 0x56] = [0x00, 0x11, 0xAA] := by decide +kernel

/-- Vector K8: two rows, the second partial. -/
theorem test_expbmp :
    answered State.reset [0x11, 0x00, 0x0A, 0x00, 0x01, 0x00, 0x02, 0x00, 0x00, 0x00, 0x24, 0x00, 0x00, 0x00, 0x03, 0x80, 0x40,
      0xC0] =
      [0x00, 0x00, 0x00, 0x00, 0x24] ++
        [0, 1, 0, 2, 0, 2, 0, 2, 0, 2, 0, 2, 0, 2, 0, 2, 0, 2, 0, 1] ++ [0, 1, 0, 1, 0, 2, 0, 2, 0, 2, 0, 2, 0, 2, 0, 2] := by
  decide +kernel

/-- Vector K14: one byte too few. -/
theorem test_expbmp_capacity :
    answered State.reset [0x11, 0x00, 0x04, 0xF8, 0x00, 0x00, 0x1F, 0x00, 0x00, 0x00, 0x07, 0x00, 0x00, 0x00, 0x01, 0xB0] =
      [0x06] := by decide +kernel

/-- Vector F1. -/
theorem test_send : (ran (ready devA) [0x20, 0x01, 0x2A, 0x00, 0x00, 0x00, 0x04, 0x00, 0x00, 0x00, 0xEF]).trace =
    [cs0, .dc .cmd, .xfer [0x2A], .dc .data, .xfer [0, 0, 0, 0xEF], cs1] := by decide +kernel

/-- Vector E17: chip-select stays low, FAULT is set. -/
theorem test_send_fails :
    let t := ran (failing devA 0) [0x20, 0x01, 0x2A, 0x00, 0x00, 0x00, 0x04, 0x00, 0x00, 0x00, 0xEF]
    t.trace = [cs0, .dc .cmd, .xfer [0x2A]] ∧ t.fault = true ∧ t.lCs = some .low ∧ t.records.flatMap recordBytes = [5] := by
  decide +kernel

/-- Vector W2. -/
theorem test_setwin : (ran (ready devB) [0x30, 0x00, 0x00, 0x00, 0x00, 0x00, 0x86, 0x00, 0xEF]).trace =
    win [0x00, 0x34, 0x00, 0xBA] [0x00, 0x28, 0x01, 0x17] := by decide +kernel

/-- Vectors W11 and W12: a negative corner under each policy. -/
theorem test_setwin_negative :
    (ran (ready devA) [0x30, 0xFF, 0xFE, 0x00, 0x00, 0x00, 0x02, 0x00, 0x00]).trace = win [0xFF, 0xFE, 0, 2] [0, 0, 0, 0] ∧
      (ran (rejecting (ready devA)) [0x30, 0xFF, 0xFE, 0x00, 0x00, 0x00, 0x02, 0x00, 0x00]).trace = [] := by decide +kernel

/-- Vector P6: no empty transfer, one pair left over. -/
theorem test_sfill : (ran (ready devA) [0x40, 0x07, 0xE0, 0x00, 0x00, 0x00, 0x81]).trace =
    [cs0, .dc .data, .xfer (List.replicate 128 [0x07, 0xE0]).flatten, .xfer [0x07, 0xE0], cs1] := by decide +kernel

/-- Vector P9 cut to 129 pixels: a frame per chunk. -/
theorem test_sfill_per_chunk : (ran (perChunk (ready devA)) [0x40, 0x07, 0xE0, 0x00, 0x00, 0x00, 0x81]).trace =
    [cs0, .dc .data, .xfer (List.replicate 128 [0x07, 0xE0]).flatten, cs1, cs0, .dc .data, .xfer [0x07, 0xE0], cs1] := by
  decide +kernel

/-- Vector S5. -/
theorem test_blit :
    (ran (ready devA) [0x41, 0x00, 0x0A, 0x00, 0x14, 0x00, 0x02, 0x00, 0x02, 0x00, 0x00, 0x00, 0x06, 0x11, 0x22, 0x33, 0x44,
      0x55, 0x66]).trace =
      win [0, 0x0A, 0, 0x0B] [0, 0x14, 0, 0x15] ++ [cs0, .dc .data, .xfer [0x11, 0x22, 0x33, 0x44, 0x55, 0x66], cs1] := by
  decide +kernel

/-- Vector P15: the window refused, two bytes streamed. -/
theorem test_blit_negative :
    (ran (ready devA) [0x41, 0x00, 0x0A, 0x00, 0x14, 0xFF, 0xFF, 0xFF, 0xFF, 0x00, 0x00, 0x00, 0x04, 1, 2, 3, 4]).trace =
      [cs0, .dc .data, .xfer [1, 2], cs1] := by decide +kernel

/-- Vector B3: the pixel is streamed though the window is refused. -/
theorem test_pixel : (ran (ready devA) [0x50, 0x00, 0xF0, 0x00, 0x00, 0xAB, 0xCD]).trace =
    [cs0, .dc .data, .xfer [0xAB, 0xCD], cs1] := by decide +kernel

/-- Vector S3. -/
theorem test_hline : (ran (ready devA) [0x51, 0x00, 0x00, 0x00, 0x00, 0x00, 0x05, 0x12, 0x34]).trace =
    win [0, 0, 0, 4] [0, 0, 0, 0] ++
      [cs0, .dc .data, .xfer [0x12, 0x34, 0x12, 0x34, 0x12, 0x34, 0x12, 0x34, 0x12, 0x34], cs1] := by decide +kernel

/-- Vector S4. -/
theorem test_vline : (ran (ready devA) [0x52, 0x00, 0x00, 0x00, 0x00, 0x00, 0x05, 0x12, 0x34]).trace =
    win [0, 0, 0, 0] [0, 0, 0, 4] ++
      [cs0, .dc .data, .xfer [0x12, 0x34, 0x12, 0x34, 0x12, 0x34, 0x12, 0x34, 0x12, 0x34], cs1] := by decide +kernel

/-- Vector B24: three runs of two. -/
theorem test_line : (ran (ready devA) [0x53, 0x00, 0x00, 0x00, 0x00, 0x00, 0x05, 0x00, 0x02, 0xFF, 0xFF]).trace =
    win [0, 0, 0, 1] [0, 0, 0, 0] ++ [cs0, .dc .data, .xfer [0xFF, 0xFF, 0xFF, 0xFF], cs1] ++
      win [0, 2, 0, 3] [0, 1, 0, 1] ++ [cs0, .dc .data, .xfer [0xFF, 0xFF, 0xFF, 0xFF], cs1] ++
      win [0, 4, 0, 5] [0, 2, 0, 2] ++ [cs0, .dc .data, .xfer [0xFF, 0xFF, 0xFF, 0xFF], cs1] := by decide +kernel

/-- Vectors B28 to B31: steep, exchanged, stepping down. -/
theorem test_line_calls :
    lineCalls 0 5 2 0 = [.vline 2 0 2, .vline 1 2 2, .vline 0 4 2] ∧
      lineCalls 0 3 6 0 = [.hline 0 3 2, .hline 2 2 2, .hline 4 1 2, .pixel 6 0] ∧
      lineCalls 0 0 4 3 = [.pixel 0 0, .hline 1 1 2, .pixel 3 2, .pixel 4 3] ∧
      lineCalls 10 0 0 3 = [.hline 0 3 2, .hline 2 2 4, .hline 6 1 3, .hline 9 0 2] := by decide +kernel

/-- Vector B13. -/
theorem test_rect : (ran (ready devA) [0x54, 0x00, 0x0A, 0x00, 0x0A, 0x00, 0x03, 0x00, 0x02, 0x00, 0x1F]).trace =
    win [0, 0x0A, 0, 0x0C] [0, 0x0A, 0, 0x0A] ++ [cs0, .dc .data, .xfer [0, 0x1F, 0, 0x1F, 0, 0x1F], cs1] ++
      win [0, 0x0A, 0, 0x0A] [0, 0x0A, 0, 0x0B] ++ [cs0, .dc .data, .xfer [0, 0x1F, 0, 0x1F], cs1] ++
      win [0, 0x0A, 0, 0x0C] [0, 0x0B, 0, 0x0B] ++ [cs0, .dc .data, .xfer [0, 0x1F, 0, 0x1F, 0, 0x1F], cs1] ++
      win [0, 0x0C, 0, 0x0C] [0, 0x0A, 0, 0x0B] ++ [cs0, .dc .data, .xfer [0, 0x1F, 0, 0x1F], cs1] := by decide +kernel

/-- Vector B18: both sides negative. -/
theorem test_frect : (ran (ready devA) [0x55, 0x00, 0x00, 0x00, 0x00, 0xFF, 0xFE, 0xFF, 0xFD, 0x11, 0x11]).trace =
    [cs0, .dc .data, .xfer (List.replicate 12 0x11), cs1] := by decide +kernel

/-- By hand from R224 on a panel of 2 by 1 without chip-select. -/
theorem test_fill : (ran (ready tiny) [0x56, 0xAB, 0xCD]).trace =
    cmdByte 0x2A ++ dataBytes [0, 0, 0, 1] ++ cmdByte 0x2B ++ dataBytes [0, 0, 0, 0] ++ cmdByte 0x2C ++
      dataBytes [0xAB, 0xCD, 0xAB, 0xCD] := by decide +kernel

/-- Vector L18. -/
theorem test_hreset : (ran (ready devA) [0x60]).trace =
    [cs0, .rst .high, .delay 50, .rst .low, .delay 50, .rst .high, .delay 150, cs1] := by decide +kernel

/-- Vector L19. -/
theorem test_sreset : (ran (ready devA) [0x61]).trace = [cs0] ++ cmdByte 0x01 ++ [cs1, .delay 150] := by decide +kernel

/-- By hand from R240 on a panel of 2 by 1 without chip-select, rotation 1 asked for. -/
theorem test_init : (ran (ready tiny) [0x62]).trace =
    [.rst .high, .delay 50, .rst .low, .delay 50, .rst .high, .delay 150] ++ cmdByte 0x01 ++ [.delay 150] ++ cmdByte 0x11 ++
      cmdByte 0x3A ++ dataBytes [0x55] ++ [.delay 10] ++ cmdByte 0x36 ++ dataBytes [0x10] ++ cmdByte 0x21 ++ [.delay 10] ++
      cmdByte 0x13 ++ [.delay 10] ++ cmdByte 0x2A ++ dataBytes [0, 0, 0, 1] ++ cmdByte 0x2B ++ dataBytes [0, 0, 0, 0] ++
      cmdByte 0x2C ++ dataBytes [0, 0, 0, 0] ++ cmdByte 0x29 ++ [.delay 100] ++ cmdByte 0x36 ++ dataBytes [0x60] := by
  decide +kernel

/-- Vector L26 on that panel: width and height change places; the ghosts. -/
theorem test_init_state :
    let t := ran (ready tiny) [0x62]
    t.device = some { tiny with width := 1, height := 2, rotation := 1 } ∧ t.gLife = some .ready ∧ t.gSleep = some .awake ∧
      t.gDisp = some .displayOn := by decide +kernel

/-- Vector L21. -/
theorem test_sleep : (ran (ready devA) [0x63, 0x01]).trace = [cs0] ++ cmdByte 0x10 ++ [cs1] ∧
    (ran (ready devA) [0x63, 0x00]).trace = [cs0] ++ cmdByte 0x11 ++ [cs1] := by decide +kernel

/-- Vector L22. -/
theorem test_invert : (ran (ready devA) [0x64, 0x01]).trace = [cs0] ++ cmdByte 0x21 ++ [cs1] ∧
    (ran (ready devA) [0x64, 0x00]).trace = [cs0] ++ cmdByte 0x20 ++ [cs1] := by decide +kernel

/-- Vectors L23 and L24. -/
theorem test_blon : (ran (ready devA) [0x65]).trace = [.bl .high, .delay 10] ∧ (ran (ready devC) [0x65]).trace = [.delay 10] := by
  decide +kernel

/-- Vectors L23 and L24. -/
theorem test_bloff : (ran (ready devA) [0x66]).trace = [.bl .low, .delay 10] ∧ (ran (ready devC) [0x66]).trace = [.delay 10] := by
  decide +kernel

/-- Vector L7. -/
theorem test_rotate :
    let t := ran (ready devB) [0x67, 0x00, 0x01]
    t.trace = [cs0] ++ cmdByte 0x36 ++ dataBytes [0x60] ++ [cs1] ∧
      t.device = some { devB with width := 240, height := 135, rotation := 1 } := by decide +kernel

/-- Vector E22: the registers are written before the frame fails. -/
theorem test_rotate_fails :
    let t := ran (failing devB 0) [0x67, 0x00, 0x01]
    t.trace = [cs0] ++ cmdByte 0x36 ∧ t.device = some { devB with width := 240, height := 135, rotation := 1 } ∧
      t.records.flatMap recordBytes = [5] := by decide +kernel

/-- Vectors L15 and L16. -/
theorem test_getrot : answered (ready { devB with rotation := 1 }) [0x68] = [0x00, 0x01] ∧ answered (ready devA) [0x68] = [0x01] := by
  decide +kernel

/-- Vectors L17 and E14. -/
theorem test_getdim : answered (ready devA) [0x69] = [0x00, 0x00, 0xF0, 0x00, 0xF0] ∧ answered State.reset [0x69] = [0x02] := by
  decide +kernel

/-- R157, the bounds of vector W2: a wire frame is the SEND of its bytes. -/
theorem test_caset : (nextOf (exec (.caset 0x34 0xBA) (ready devB))).trace =
    [cs0] ++ cmdByte 0x2A ++ dataBytes [0x00, 0x34, 0x00, 0xBA] ++ [cs1] := by decide +kernel

/-- R152, R146. -/
theorem test_slpout : (nextOf (exec .slpout (ready devC))).trace = cmdByte 0x11 ∧
    (nextOf (exec .slpout (ready devC))).gSleep = some .awake := by decide +kernel

/-- R146: a host's software-reset command sets both panel ghosts at once (notes/assumptions/17.md). -/
theorem test_swreset_ghosts :
    let t := ran { ready devA with gSleep := some .awake, gDisp := some .displayOn } [0x20, 0x01, 0x01, 0, 0, 0, 0]
    t.gSleep = some .asleep ∧ t.gDisp = some .displayOff := by decide +kernel

/-- R161. -/
theorem test_colmod : (nextOf (exec (.colmod 0x55) (ready devC))).trace = cmdByte 0x3A ++ dataBytes [0x55] := by decide +kernel

/-- A table row runs as the first request. -/
theorem test_fetch_word : (nextOf (step ((ready devA).withFetchWord 8 0x60))).trace.length = 8 ∧
    decodeTableWord 8 0x60 = some .hreset ∧ decodeTableWord 8 0x21 = some .invon := by decide +kernel

/-! Witnesses: states and operands that meet the hypotheses of the statements. -/

/-- A bus condition on a concrete state. -/
def okFor (s : State) (n : Nat) : Bool := (List.range n).all fun k => outcomeAt s (s.xfers + k) == .ok

theorem busOk_of_okFor {s : State} {n : Nat} (h : okFor s n = true) : BusOk s n := fun k hk => by
  have := List.all_eq_true.1 h k (List.mem_range.2 hk)
  exact beq_iff_eq.1 this

theorem witness_DescriptorRoundTrip : Instr.isRequest (.blit 0 0 1 1 [7]) = true ∧ Instr.WellFormed (.blit 0 0 1 1 [7]) ∧
    decode [0x67, 0x80, 0x00] = .instr (.rotate 0x8000) := by decide

theorem witness_FrameRoundTrip : Instr.isRequest (.caset 0xFFFF 0) = false ∧
    decodeFrame [0x2A, 0xFF, 0xFF, 0x00, 0x00] = .instr (.caset 0xFFFF 0) := by decide

theorem witness_ReservedOpcodes : (0x00 : Byte) ∉ requestOpcodes ∧ (0x57 : Byte) ∉ requestOpcodes ∧
    (0x6A : Byte) ∉ requestOpcodes ∧ (0xFF : Byte) ∉ requestOpcodes := by decide

/-- A format without buffer one byte long and one short; a buffer format cut in its fixed bytes, one byte long, one short. -/
theorem witness_DescriptorLength :
    (formatOf 0x60 = some .n ∧ ([0] : Bytes).length + 1 ≠ Format.n.fixedLength) ∧
      (formatOf 0x56 = some .c ∧ ([0] : Bytes).length + 1 ≠ Format.c.fixedLength) ∧
      (formatOf 0x20 = some .sd ∧ ([1, 0x2A, 0, 0, 0] : Bytes).length + 1 < Format.sd.fixedLength) ∧
      (([1, 0x2A, 0, 0, 0, 0, 9] : Bytes).length + 1 ≠
        Format.sd.fixedLength + beValue (([1, 0x2A, 0, 0, 0, 0, 9] : Bytes).drop (Format.sd.fixedLength - 5) |>.take 4)) ∧
      (([1, 0x2A, 0, 0, 0, 2, 9] : Bytes).length + 1 ≠
        Format.sd.fixedLength + beValue (([1, 0x2A, 0, 0, 0, 2, 9] : Bytes).drop (Format.sd.fixedLength - 5) |>.take 4)) := by
  decide

theorem witness_ReservedFields : ((2 : Byte) ≠ 0 ∧ (2 : Byte) ≠ 1) ∧
    (([9] : Bytes).length = beValue [0, 0, 0, 1] ∧ 1 < (2 : Byte).toNat) ∧
    (([] : Bytes).length = beValue [0, 0, 0, 0] ∧ (0 : Byte) = 0 ∧ (1 : Byte) ≠ 0) ∧
    64 ≤ (0x4F : Byte).toNat ∧ 64 ≤ (0x80 : Byte).toNat ∧ ((0x0F : Byte).getLsbD 5 = false ∧ (1 : Byte) ≠ 0) ∧
    ((0x2F : Byte).getLsbD 4 = false ∧ (1 : Byte) ≠ 0) := by decide

theorem witness_StepRunsDecoded :
    let s := presenting (ready devA) [0x60]
    s.busy = false ∧ s.requests[s.rp]? = some [0x60] ∧ decode [0x60] = .instr .hreset := by decide +kernel

theorem witness_StepIllegal :
    let s := presenting (ready devA) [0x60, 0x00]
    s.busy = false ∧ s.requests[s.rp]? = some [0x60, 0x00] ∧ decode [0x60, 0x00] = .rejected .badLength := by decide +kernel

theorem witness_StepWaits : { ready devA with busy := true }.busy = true ∧ (ready devA).busy = false ∧
    (ready devA).requests.length ≤ (ready devA).rp := by decide +kernel

theorem witness_StepCompletesOne :
    let s := presenting (failing devA 0) [0x61]
    s.busy = false ∧ s.rp < s.requests.length := by decide +kernel

theorem witness_NotConstructed : needsDevice .getdim = true ∧ needsDevice .swreset = true ∧ State.reset.device = none := by decide

/-- Exactly enough room, and the width that is the least. -/
theorem witness_ExpandBitmap : 1 ≤ (1 : Half).toInt ∧ expansionNeed (1 : Half).toInt.toNat 2 ≤ (4 : Quad).toNat ∧
    1 ≤ (10 : Half).toInt ∧ expansionNeed (10 : Half).toInt.toNat 3 ≤ (36 : Quad).toNat := by decide

theorem witness_ExpandBadOperand : (0 : Half).toInt < 1 ∧ (0xFFFD : Half).toInt < 1 ∧ 1 ≤ (4 : Half).toInt ∧
    (7 : Quad).toNat < expansionNeed (4 : Half).toInt.toNat 1 := by decide

theorem witness_ConfigConstructs_origin :
    let f : ConfigFields := ⟨true, true, false, false, true, false, 128, 160, 0, 2, 1⟩
    f.rstp = true ∧ f.dcp = true ∧ f.width ≠ 0 ∧ f.height ≠ 0 ∧ f.orgp = true := by decide

theorem witness_ConfigConstructs_preset :
    let f : ConfigFields := ⟨true, true, true, true, false, false, 135, 240, 0, 0, 0⟩
    f.rstp = true ∧ f.dcp = true ∧ f.width ≠ 0 ∧ f.height ≠ 0 ∧ f.orgp = false ∧
      PresetIs (ready devA).params f.width f.height 52 40 :=
  ⟨rfl, rfl, by decide, by decide, rfl, [⟨240, 240, 0, 0⟩], [], rfl, by decide⟩

theorem witness_ConfigLines : (⟨false, true, true, true, false, false, 0, 0, 0, 0, 0⟩ : ConfigFields).rstp = false ∧
    (⟨true, false, true, true, false, false, 240, 240, 0, 0, 0⟩ : ConfigFields).dcp = false := by decide

theorem witness_ConfigGeometry :
    (⟨true, true, false, false, true, false, 0, 240, 0, 0, 0⟩ : ConfigFields).width = 0 ∧
      (⟨true, true, false, false, true, false, 240, 0, 0, 0, 0⟩ : ConfigFields).height = 0 ∧
      ∀ xs ys, ¬ PresetIs (ready devA).params 128 160 xs ys := by
  refine ⟨rfl, rfl, ?_⟩
  rintro xs ys ⟨before, after, h, -⟩
  have hm : (⟨128, 160, xs, ys⟩ : Preset) ∈ (ready devA).params.presets := by simp [h]
  simp [ready, Params.p0] at hm

/-- With and without a command byte, with and without data. -/
theorem witness_SendFrame : (ready devA).device = some devA ∧ BusOk (ready devA) 2 ∧ BusOk (ready devA) 1 ∧
    BusOk (ready devA) 0 :=
  ⟨rfl, busOk_of_okFor (by decide +kernel), busOk_of_okFor (by decide +kernel), busOk_of_okFor rfl⟩

theorem witness_SendAborts : (failing devA 0).device = some devA ∧
    outcomeAt (failing devA 0) (failing devA 0).xfers = .fail ∧ outcomeAt (failing devA 1) (failing devA 1).xfers = .ok ∧
    outcomeAt (failing devA 1) ((failing devA 1).xfers + 1) = .fail := by decide +kernel

theorem witness_WireFrames : wireFrame .swreset = some (0x01, []) ∧ wireFrame (.caset 0x34 0xBA) = some (0x2A, [0, 0x34, 0, 0xBA]) ∧
    wireFrame (.madctl 0x60) = some (0x36, [0x60]) ∧ (ready devB).device = some devB ∧ BusOk (ready devB) 2 :=
  ⟨rfl, by decide, rfl, rfl, busOk_of_okFor (by decide +kernel)⟩

/-- The largest window and the largest corner; a negative corner under the literal policy. -/
theorem witness_SetwinPrograms : (ready devA).device = some devA ∧
    WindowOk devA (ready devA).params (0 : Half).toInt (0 : Half).toInt (239 : Half).toInt (239 : Half).toInt ∧
    WindowOk devA (ready devA).params (239 : Half).toInt (239 : Half).toInt (239 : Half).toInt (239 : Half).toInt ∧
    WindowOk devA (ready devA).params (0xFFFE : Half).toInt (0 : Half).toInt (2 : Half).toInt (0 : Half).toInt ∧
    BusOk (ready devA) 5 :=
  ⟨rfl, by decide, by decide, by decide, busOk_of_okFor (by decide +kernel)⟩

theorem witness_SetwinIgnored : (4 : Half).toInt < (5 : Half).toInt ∧ (devA.width.toNat : Int) ≤ (240 : Half).toInt ∧
    (devA.height.toNat : Int) ≤ (240 : Half).toInt ∧ (rejecting (ready devA)).params.negCoordPolicy = .reject ∧
    (0xFFFF : Half).toInt < 0 ∧ (rejecting (ready devA)).device = some devA := by decide +kernel

theorem witness_SetwinShape :
    let s := ready devA
    let t := nextOf (exec (.setwin 0 0 239 239) s)
    s.device = some devA ∧ s.fault = false ∧
      WindowOk devA s.params (0 : Half).toInt (0 : Half).toInt (239 : Half).toInt (239 : Half).toInt ∧
      exec (.setwin 0 0 239 239) s = .next t ∧ t.fault = false ∧ t.trace = s.trace ++ t.trace :=
  ⟨rfl, rfl, by decide, eq_next_of_isNext (by decide +kernel), by decide +kernel, rfl⟩

/-- A transfer of the stream, and a write of its registers by each source. -/
theorem witness_StreamChunks :
    eventsOf (streamActs devA Params.p0 .buffer [7, 8]) = [cs0, .dc .data] ++ .xfer [7, 8] :: [cs1] ∧
      fitsLength [7, 8] ∧ ([7, 8] : Bytes).length < 2 ^ 40 ∧
      .stream ⟨0, 2, 0⟩ ∈ streamActs devA Params.p0 .buffer [7, 8] ∧
      .stream ⟨0, 2, 0⟩ ∈ streamActs devA Params.p0 .stage [7, 8] := by
  decide +kernel

/-- By hand from R34 and R38: the offset of the transfer after a full one, in a buffer and in STAGE. -/
theorem test_stream_pos :
    (streamTransfers .buffer (List.replicate 258 0)).map (fun t => t.1) = [⟨1, 2, 0⟩, ⟨0, 2, 256⟩] ∧
      (streamTransfers .stage (List.replicate 258 0)).map (fun t => t.1) = [⟨1, 2, 0⟩, ⟨0, 2, 0⟩] := by
  decide +kernel

/-- A count of zero, a negative one, a chunk and one pixel more. -/
theorem witness_SfillStreams : (ready devA).device = some devA ∧
    BusOk (ready devA) (xferCount (sfillEvents devA (ready devA).params 0x07E0 (129 : Quad).toInt)) ∧
    BusOk (ready devA) (xferCount (sfillEvents devA (ready devA).params 0x07E0 (-5 : Quad).toInt)) :=
  ⟨rfl, busOk_of_okFor (by decide +kernel), busOk_of_okFor (by decide +kernel)⟩

theorem witness_SfillTransfers :
    let s := ready devA
    let t := nextOf (exec (.sfill 0x07E0 129) s)
    s.device = some devA ∧ s.fault = false ∧ exec (.sfill 0x07E0 129) s = .next t ∧ t.fault = false :=
  ⟨rfl, rfl, eq_next_of_isNext (by decide +kernel), by decide +kernel⟩

/-- The window accepted, and refused with the product of the sides positive. -/
theorem witness_BlitStreams : (ready devA).device = some devA ∧
    BusOk (ready devA) (xferCount (setwinEvents devA (ready devA).params 10 20 11 21 ++
      streamEvents devA (ready devA).params [1, 2, 3, 4, 5, 6])) ∧
    BusOk (ready devA) (xferCount (setwinEvents devA (ready devA).params 10 20 8 18 ++
      streamEvents devA (ready devA).params [1, 2])) :=
  ⟨rfl, busOk_of_okFor (by decide +kernel), busOk_of_okFor (by decide +kernel)⟩

theorem witness_BlitTransfers :
    let s := ready devA
    let t := nextOf (exec (.blit 10 20 2 2 [1, 2, 3, 4, 5, 6]) s)
    s.device = some devA ∧ s.fault = false ∧ WindowOk devA s.params 10 20 (10 + 2 - 1) (20 + 2 - 1) ∧
      ((6 : Nat) : Int) = max 0 (min (([1, 2, 3, 4, 5, 6] : Bytes).length : Int) (2 * 2 * 2)) ∧
      exec (.blit 10 20 2 2 [1, 2, 3, 4, 5, 6]) s = .next t ∧ t.fault = false :=
  ⟨rfl, rfl, by decide, by decide, eq_next_of_isNext (by decide +kernel), by decide +kernel⟩

/-- The window of the pixel accepted and refused. -/
theorem witness_PixelDraws : (ready devA).device = some devA ∧
    BusOk (ready devA) (xferCount (pixelEvents devA (ready devA).params 239 239 0xABCD)) ∧
    BusOk (ready devA) (xferCount (pixelEvents devA (ready devA).params 240 0 0xABCD)) :=
  ⟨rfl, busOk_of_okFor (by decide +kernel), busOk_of_okFor (by decide +kernel)⟩

theorem witness_HlineDraws : (ready devA).device = some devA ∧
    BusOk (ready devA) (xferCount (hlineEvents devA (ready devA).params 0 0 5 0x1234)) ∧
    BusOk (ready devA) (xferCount (hlineEvents devA (ready devA).params 0 0 (-3) 0x1234)) :=
  ⟨rfl, busOk_of_okFor (by decide +kernel), busOk_of_okFor (by decide +kernel)⟩

theorem witness_VlineDraws : (ready devA).device = some devA ∧
    BusOk (ready devA) (xferCount (vlineEvents devA (ready devA).params 3 0 1 0x2222)) ∧
    BusOk (ready devA) (xferCount (vlineEvents devA (ready devA).params 0 238 4 0x2222)) :=
  ⟨rfl, busOk_of_okFor (by decide +kernel), busOk_of_okFor (by decide +kernel)⟩

theorem witness_LineDraws : (ready devA).device = some devA ∧
    BusOk (ready devA) (xferCount ((lineCalls 0 0 5 2).flatMap (lineCallEvents devA (ready devA).params 0xFFFF))) :=
  ⟨rfl, busOk_of_okFor (by decide +kernel)⟩

/-- A call of each of the two forms the last clause speaks of. -/
theorem witness_LineCallCount : LineCall.hline 0 0 2 ∈ lineCalls 0 0 5 2 ∧ LineCall.vline 0 0 2 ∈ lineCalls 0 0 2 5 := by
  decide +kernel

theorem witness_LineAxisAligned : (4 : Int) ≠ 0 ∧ lineCalls 4 0 0 0 = [.hline (min 4 0) 0 (((0 - 4 : Int)).natAbs + 1)] := by
  decide +kernel

theorem witness_RectDraws : (ready devA).device = some devA ∧
    BusOk (ready devA) (xferCount (hlineEvents devA (ready devA).params 10 10 3 0x1F ++
      vlineEvents devA (ready devA).params 10 10 2 0x1F ++ hlineEvents devA (ready devA).params 10 (10 + 2 - 1) 3 0x1F ++
      vlineEvents devA (ready devA).params (10 + 3 - 1) 10 2 0x1F)) :=
  ⟨rfl, busOk_of_okFor (by decide +kernel)⟩

theorem witness_FrectDraws : (ready devA).device = some devA ∧
    BusOk (ready devA) (xferCount (frectEvents devA (ready devA).params 0 0 20 15 0xFFFF)) ∧
    BusOk (ready devA) (xferCount (frectEvents devA (ready devA).params 0 0 (-2) (-3) 0xFFFF)) :=
  ⟨rfl, busOk_of_okFor (by decide +kernel), busOk_of_okFor (by decide +kernel)⟩

theorem witness_FillDraws : (ready tiny).device = some tiny ∧ 0 < tiny.width.toNat ∧ 0 < tiny.height.toNat ∧
    BusOk (ready tiny) (xferCount (windowEvents tiny 0 0 ((tiny.width.toNat : Int) - 1) ((tiny.height.toNat : Int) - 1) ++
      sfillEvents tiny (ready tiny).params 0xABCD (tiny.width.toNat * tiny.height.toNat))) :=
  ⟨rfl, by decide, by decide, busOk_of_okFor (by decide +kernel)⟩

theorem witness_HresetPulses : (ready devA).device = some devA ∧ (ready devC).device = some devC := by decide

theorem witness_SresetSends : (ready devA).device = some devA ∧ outcomeAt (ready devA) (ready devA).xfers = .ok ∧
    (failing devA 0).device = some devA ∧ outcomeAt (failing devA 0) (failing devA 0).xfers = .fail := by decide +kernel

/-- With the rotation asked for applied. -/
theorem witness_InitSequence : (ready tiny).device = some tiny ∧ InitRotates tiny ∧
    BusOk (ready tiny) (xferCount (initEvents tiny (ready tiny).params)) :=
  ⟨rfl, by decide, busOk_of_okFor (by decide +kernel)⟩

theorem witness_SleepSends : (ready devA).device = some devA ∧ BusOk (ready devA) 1 :=
  ⟨rfl, busOk_of_okFor (by decide +kernel)⟩

theorem witness_InvertSends : (ready devC).device = some devC ∧ BusOk (ready devC) 1 :=
  ⟨rfl, busOk_of_okFor (by decide +kernel)⟩

/-- With a backlight line and without. -/
theorem witness_BacklightSwitches : (ready devA).device = some devA ∧ devA.hasBl = true ∧ (ready devC).device = some devC ∧
    devC.hasBl = false := by decide

theorem witness_RotationVariantOnly : (ready devA).device = some devA ∧ devA.rotCap = false := by decide

/-- The least and the greatest rotation, and each place the frame can fail. -/
theorem witness_RotateSets : (ready devB).device = some devB ∧ devB.rotCap = true ∧ 0 ≤ (0 : Half).toInt ∧
    (3 : Half).toInt ≤ 3 ∧ BusOk (ready devB) 2 ∧ outcomeAt (failing devB 0) (failing devB 0).xfers = .fail ∧
    outcomeAt (failing devB 1) (failing devB 1).xfers = .ok ∧
    outcomeAt (failing devB 1) ((failing devB 1).xfers + 1) = .fail :=
  ⟨rfl, rfl, by decide, by decide, busOk_of_okFor (by decide +kernel), by decide +kernel, by decide +kernel, by decide +kernel⟩

theorem witness_RotateIgnored : (ready devB).device = some devB ∧ devB.rotCap = true ∧ (0xFFFF : Half).toInt < 0 ∧
    3 < (4 : Half).toInt := by decide

/-- The rotation-capable variant and the other. -/
theorem witness_GetrotReturns : (ready devB).device = some devB ∧ devB.rotCap = true ∧ (ready devA).device = some devA ∧
    devA.rotCap = false := by decide

theorem witness_GetdimReturns : (ready devA).device = some devA := by decide

/-- A SETWIN cut at its third transfer, and the same with no failure (vector E20). -/
theorem witness_AbortPrecise :
    let s := failing devA 2
    let s' := { s with busScript := List.replicate 5 .ok }
    s.fault = false ∧ exec (.setwin 0 0 9 9) s = .next (nextOf (exec (.setwin 0 0 9 9) s)) ∧
      exec (.setwin 0 0 9 9) s' = .next (nextOf (exec (.setwin 0 0 9 9) s')) ∧
      (nextOf (exec (.setwin 0 0 9 9) s')).fault = false ∧ (nextOf (exec (.setwin 0 0 9 9) s)).fault = true :=
  ⟨rfl, eq_next_of_isNext (by decide +kernel), eq_next_of_isNext (by decide +kernel), by decide +kernel, by decide +kernel⟩

theorem witness_FaultRecordsBusErrors : exec .sreset (failing devA 0) = .next (nextOf (exec .sreset (failing devA 0))) ∧
    (nextOf (exec .sreset (failing devA 0))).fault = true := ⟨eq_next_of_isNext (by decide +kernel), by decide +kernel⟩

/-- Two states that differ in FAULT, a latch, a ghost and the trace. -/
theorem witness_OnlyInputsMatter :
    let s := ready devA
    let s' := { s with fault := true, lCs := some .low, gLife := some .ready, trace := [cs0] }
    s'.device = s.device ∧ s'.params = s.params ∧ s'.busScript = s.busScript ∧ s'.xfers = s.xfers ∧
      exec .blon s = .next (nextOf (exec .blon s)) ∧ exec .blon s' = .next (nextOf (exec .blon s')) :=
  ⟨rfl, rfl, rfl, rfl, eq_next_of_isNext (by decide +kernel), eq_next_of_isNext (by decide +kernel)⟩

theorem witness_FramingIndependent :
    let s := ready devA
    exec (.sfill 0x07E0 129) s = .next (nextOf (exec (.sfill 0x07E0 129) s)) ∧
      exec (.sfill 0x07E0 129) (perChunk s) = .next (nextOf (exec (.sfill 0x07E0 129) (perChunk s))) := ⟨eq_next_of_isNext (by decide +kernel), eq_next_of_isNext (by decide +kernel)⟩

theorem witness_TwelveCommands :
    let s := ready devA
    let t := nextOf (exec .slpin s)
    (∀ cmd data, Instr.slpin ≠ .send cmd data) ∧ exec .slpin s = .next t ∧ t.trace = s.trace ++ t.trace ∧
      [0x10] ∈ commandBytes t.trace :=
  ⟨(fun _ _ h => nomatch h), eq_next_of_isNext (by decide +kernel), rfl, by decide +kernel⟩

/-- An instruction that changes no register, one that does, a request without a Device, a drawing request and an INIT
stopped by the bus, an INIT that reaches Ready. -/
theorem witness_RegistersKept : (∀ f, Instr.fill 0 ≠ .config f) ∧
    (exec (.pixel 1 1 0) (failing devA 0) = .next (nextOf (exec (.pixel 1 1 0) (failing devA 0))) ∧
      resetsPanel (.pixel 1 1 0) = false ∧ (nextOf (exec (.pixel 1 1 0) (failing devA 0))).fault = true) ∧
    (exec .init (failing tiny 0) = .next (nextOf (exec .init (failing tiny 0))) ∧
      (nextOf (exec .init (failing tiny 0))).records = [⟨.busError, .empty⟩]) ∧
    (exec .init (ready tiny) = .next (nextOf (exec .init (ready tiny))) ∧
      (nextOf (exec .init (ready tiny))).gLife = some .ready) ∧
    exec .blon (ready devA) = .next (nextOf (exec .blon (ready devA))) ∧
    exec (.rotate 1) (ready devB) = .next (nextOf (exec (.rotate 1) (ready devB))) ∧
    exec .getdim State.reset = .next (nextOf (exec .getdim State.reset)) ∧ State.reset.device = none :=
  ⟨(fun _ h => nomatch h), ⟨eq_next_of_isNext (by decide +kernel), rfl, by decide +kernel⟩,
    ⟨eq_next_of_isNext (by decide +kernel), by decide +kernel⟩, ⟨eq_next_of_isNext (by decide +kernel), by decide +kernel⟩,
    eq_next_of_isNext (by decide +kernel), eq_next_of_isNext (by decide +kernel), eq_next_of_isNext (by decide +kernel), rfl⟩

/-- A state that meets the invariant, from which a step runs a request. -/
theorem witness_StepKeepsInv :
    (presenting (ready devA) [0x65]).Inv ∧
      step (presenting (ready devA) [0x65]) = .next (nextOf (step (presenting (ready devA) [0x65]))) := by
  refine ⟨?_, eq_next_of_isNext (by decide +kernel)⟩
  simp [State.Inv, LatchInv, DeviceInv, presenting, ready, State.reset, transfersOf, xferCount, devA]

/-- Vectors K3, L16, L17, K7 and F2: one record of each form with status OK; E14: one with another status. -/
theorem witness_RecordBytes :
    exec (.pack565 0x12 0x34 0x56) State.reset = .next (nextOf (exec (.pack565 0x12 0x34 0x56) State.reset)) ∧
    exec .getrot (ready devB) = .next (nextOf (exec .getrot (ready devB))) ∧
    exec .getdim (ready devA) = .next (nextOf (exec .getdim (ready devA))) ∧
    exec (.expbmp 3 0xFFFF 0 12 [0xA5, 0xFF]) State.reset =
      .next (nextOf (exec (.expbmp 3 0xFFFF 0 12 [0xA5, 0xFF]) State.reset)) ∧
    exec .dispon (ready devA) = .next (nextOf (exec .dispon (ready devA))) ∧
    exec .getdim State.reset = .next (nextOf (exec .getdim State.reset)) ∧
    ((nextOf (exec .getdim State.reset)).records.map Record.status = [.notConstructed]) ∧
    ((nextOf (exec (.expbmp 3 0xFFFF 0 12 [0xA5, 0xFF]) State.reset)).records.map Record.status = [.ok]) :=
  ⟨eq_next_of_isNext (by decide +kernel), eq_next_of_isNext (by decide +kernel), eq_next_of_isNext (by decide +kernel),
    eq_next_of_isNext (by decide +kernel), eq_next_of_isNext (by decide +kernel), eq_next_of_isNext (by decide +kernel),
    by decide +kernel, by decide +kernel⟩

end Sys2Proof.Tests
end

section
/-! What a step and an instruction leave, for every instruction at once: the shape `ended` of the state after any
request but CONFIG, and the rules of the statements about the state between requests (10_state.md). -/

namespace Sys2Proof

open Machine

/-! One step at a presented descriptor (10_state.md R31). -/

theorem step_of_decodes {s : State} {b : Bytes} {i : Instr} (hb : s.busy = false) (hp : s.requests[s.rp]? = some b)
    (hd : decode b = .instr i) : step s = exec i s := by
  simp [step, presented, hb, hp, hd]

theorem step_of_rejects {s : State} {b : Bytes} {r : Reject} (hb : s.busy = false) (hp : s.requests[s.rp]? = some b)
    (hd : decode b = .rejected r) : step s = .next (recorded s .illegalRequest .empty) := by
  have hillegal : step s = illegalRequest s := by simp [step, presented, hb, hp, hd]
  exact hillegal.trans rfl

/-- Settles O8: the port is free and the descriptor decodes, so the step is the instruction's meaning. -/
theorem stepRunsDecoded : Obligations.StepRunsDecoded :=
  fun _ _ _ hb hp hd => step_of_decodes hb hp hd

/-! Running actions: nothing but the bus script and the transfer counter decides how far they get. -/

/-- The two states agree on all that an instruction reads but its operands (10_state.md R30, R32, R44, R50). -/
structure SameInputs (s s' : State) : Prop where
  device : s'.device = s.device
  params : s'.params = s.params
  busScript : s'.busScript = s.busScript
  xfers : s'.xfers = s.xfers

theorem SameInputs.refl (s : State) : SameInputs s s := ⟨rfl, rfl, rfl, rfl⟩

theorem SameInputs.busOk {s s' : State} (h : SameInputs s s') {n : Nat} (hb : BusOk s n) : BusOk s' n := by
  intro k hk
  rw [outcomeAt_congr h.busScript, h.xfers]
  exact hb k hk

/-- The first transfer to fail stops the actions right after it (60_exceptions.md R266). -/
theorem drive_of_fail {before after : List Act} {b : Bytes} {s : State}
    (hok : BusOk s (xferCount (eventsOf before)))
    (hfail : outcomeAt s (s.xfers + xferCount (eventsOf before)) = .fail) :
    drive (before ++ .xfer b :: after) s =
      .next (complete .busError .empty (setFault (applyActs (before ++ [.xfer b]) s))) := by
  have hx : outcomeAt (applyActs before s) (applyActs before s).xfers = .fail := by
    rw [outcomeAt_congr (applyActs_busScript before s), applyActs_xfers, hfail]
  have hstep : stepAct (.xfer b) (applyActs before s) =
      .raised .busError (setFault (applyAct (.xfer b) (applyActs before s))) := by
    simp [stepAct, hx]
  rw [drive, runActs_append, runActs_of_busOk before s hok]
  simp only [runActs_cons, hstep, applyActs_append, applyActs_cons, applyActs_nil]
  rfl

theorem applyAct_acceptRequest (a : Act) (l : Latches) (s : State) :
    applyAct a (acceptRequest l s) = acceptRequest l (applyAct a s) := by
  cases a <;> rfl

theorem applyActs_acceptRequest (acts : List Act) (l : Latches) (s : State) :
    applyActs acts (acceptRequest l s) = acceptRequest l (applyActs acts s) := by
  induction acts generalizing s with
  | nil => rfl
  | cons a rest ih => rw [applyActs_cons, applyAct_acceptRequest, ih, applyActs_cons]

/-! The state an instruction other than CONFIG leaves. -/

/-- FAULT is set when the status is BUS_ERROR (60_exceptions.md R266). -/
def faultOf (st : Status) (s : State) : State := if st = .busError then setFault s else s

/-- `s` after a request that performed `done` and produced the record `(st, v)`. -/
def ended (done : List Act) (st : Status) (v : Value) (s : State) : State :=
  complete st v (faultOf st (applyActs done s))

/-- What a request whose actions are `acts` performs of them, and its status: all, or up to a failed transfer (R277). -/
inductive Performed (acts : List Act) : List Act → Status → Prop where
  | all : Performed acts acts .ok
  | cut {before after : List Act} {b : Bytes} (h : acts = before ++ .xfer b :: after) :
    Performed acts (before ++ [.xfer b]) .busError

theorem Performed.subset {acts done : List Act} {st : Status} (h : Performed acts done st) : done ⊆ acts := by
  cases h with
  | all => exact List.Subset.refl acts
  | cut h => subst h; simp

/-- A record of an instruction that performs no actions: no bus failure, a value with status OK only (10_state.md R37), and
status OK only where the instruction is no frame. -/
structure IsAnswer (i : Instr) (st : Status) (v : Value) : Prop where
  ne_busError : st ≠ .busError
  empty_of_not_ok : st ≠ .ok → v = .empty
  no_frame_of_ok : st = .ok → frameCommand i = none

/-- Which actions `done` an instruction other than CONFIG performs in a state, and its record: it answers only, or drives
the actions of its rule. -/
inductive Ends (i : Instr) (s : State) : List Act → Status → Value → Prop where
  | answers {st : Status} {v : Value} (h : IsAnswer i st v) : Ends i s [] st v
  | drives {d : Device} {acts done : List Act} {st : Status} (hd : s.device = some d)
    (ha : actsOf s.params d i = some acts) (hp : Performed acts done st) : Ends i s done st .empty

theorem Ends.empty_of_not_ok {i : Instr} {s : State} {done : List Act} {st : Status} {v : Value}
    (h : Ends i s done st v) : st ≠ .ok → v = .empty := by
  cases h with
  | answers h => exact h.empty_of_not_ok
  | drives hd ha hp => exact fun _ => rfl

theorem ended_nil {st : Status} (v : Value) (s : State) (h : st ≠ .busError) :
    ended [] st v s = recorded s st v := by
  rw [ended, faultOf, if_neg h]
  rfl

section
variable (done : List Act) (st : Status) (v : Value) (s : State)

@[simp] theorem ended_device : (ended done st v s).device = (applyActs done s).device := by
  cases st <;> rfl

@[simp] theorem ended_gLife : (ended done st v s).gLife = (applyActs done s).gLife := by
  cases st <;> rfl

@[simp] theorem ended_gSleep : (ended done st v s).gSleep = (applyActs done s).gSleep := by
  cases st <;> rfl

@[simp] theorem ended_gDisp : (ended done st v s).gDisp = (applyActs done s).gDisp := by
  cases st <;> rfl

theorem ended_fault_iff : (ended done st v s).fault = true ↔ s.fault = true ∨ st = .busError := by
  cases st <;> simp [ended, faultOf]

theorem completed_ended : Completed s (ended done st v s) (eventsOf done) st v := by
  have hc : Completed s (complete st v (applyActs done s)) (eventsOf done) st v := by
    simp [Completed, applyActs_trace, applyActs_xfers, applyActs_lCs, applyActs_lDc, applyActs_lRst, applyActs_lBl]
  cases st <;> exact hc

end

/-- A driven request performs the same actions and ends the same way from every state with the same inputs. -/
theorem drive_eq_ended (acts : List Act) (l : Latches) (s : State) :
    ∃ done st, Performed acts done st ∧
      ∀ s', SameInputs s s' → drive acts (acceptRequest l s') = .next (ended done st .empty s') := by
  rcases drive_cases acts s with ⟨-, hok⟩ | ⟨before, b, after, rfl, hok, hfail, -⟩
  · refine ⟨acts, .ok, .all, fun s' h => ?_⟩
    rw [drive_of_busOk _ _ (busOk_acceptRequest.2 (h.busOk hok)), applyActs_acceptRequest, complete_acceptRequest]
    rfl
  · refine ⟨_, .busError, .cut rfl, fun s' h => ?_⟩
    have hfail' : outcomeAt s' (s'.xfers + xferCount (eventsOf before)) = .fail := by
      rw [outcomeAt_congr h.busScript, h.xfers, hfail]
    rw [drive_of_fail (busOk_acceptRequest.2 (h.busOk hok)) hfail', applyActs_acceptRequest]
    rfl

/-- Without a Device, a request that needs one (60_exceptions.md R263). -/
theorem exec_of_no_device {i : Instr} {s : State} (hn : needsDevice i = true) (hd : s.device = none) :
    exec i s = .next (recorded s .notConstructed .empty) := by
  cases i with
  | config | pack565 | expbmp => cases hn
  | rotate n => exact (exec_rotate n s).trans (withDevice_none hd)
  | getrot => exact (exec_getrot s).trans (withDevice_none hd)
  | _ => exact withDevice_none hd

/-- From every state with this Device the instruction produces one and the same record and does nothing else. -/
def Answers (i : Instr) (dev : Option Device) : Prop :=
  ∃ st v, IsAnswer i st v ∧ ∀ s, s.device = dev → exec i s = .next (recorded s st v)

theorem Answers.ok {i : Instr} {dev : Option Device} (v : Value) (hi : frameCommand i = none)
    (h : ∀ s, s.device = dev → exec i s = .next (recorded s .ok v)) : Answers i dev :=
  ⟨.ok, v, ⟨by decide, fun hne => absurd rfl hne, fun _ => hi⟩, h⟩

theorem Answers.error {i : Instr} {dev : Option Device} (st : Status) (hst : st ≠ .busError) (hok : st ≠ .ok)
    (h : ∀ s, s.device = dev → exec i s = .next (recorded s st .empty)) : Answers i dev :=
  ⟨st, .empty, ⟨hst, fun _ => rfl, fun e => absurd e hok⟩, h⟩

theorem expbmp_answers (width fg bg : Half) (olen : Quad) (src : Bytes) (dev : Option Device) :
    Answers (.expbmp width fg bg olen src) dev := by
  by_cases hw : sext16 width < 1
  · refine .error .badOperand (by decide) (by decide) fun s _ => ?_
    change execExpbmp width fg bg olen src s = _
    rw [execExpbmp, if_pos hw]
    rfl
  · by_cases ho : olen.toNat < expandNeed (sext16 width).toNat src.length
    · refine .error .badOperand (by decide) (by decide) fun s _ => ?_
      change execExpbmp width fg bg olen src s = _
      rw [execExpbmp, if_neg hw, if_pos ho]
      rfl
    · refine .ok (.expanded (BitVec.ofNat 32 (expandBytes (sext16 width).toNat fg bg src 0).length)
        (expandBytes (sext16 width).toNat fg bg src 0)) rfl fun s _ => ?_
      change execExpbmp width fg bg olen src s = _
      rw [execExpbmp, if_neg hw, if_neg ho]
      rfl

theorem getrot_answers (d : Device) : Answers .getrot (some d) := by
  cases hr : d.rotCap with
  | true =>
    refine .ok (.rotation d.rotation) rfl fun s hd => ?_
    rw [exec_getrot, withDevice_some hd, whenRotCapable_true hr]
    rfl
  | false =>
    refine .error .illegalRequest (by decide) (by decide) fun s hd => ?_
    rw [exec_getrot, withDevice_some hd, whenRotCapable_false hr]
    rfl

/-- ROTATE is of the rotation-capable variant only (60_exceptions.md R264). -/
theorem rotate_answers (n : Half) {d : Device} (hr : d.rotCap = false) : Answers (.rotate n) (some d) := by
  refine .error .illegalRequest (by decide) (by decide) fun s hd => ?_
  rw [exec_rotate, withDevice_some hd, whenRotCapable_false hr]
  rfl

/-- The instructions but CONFIG that drive no actions only answer. -/
theorem answers_of_no_acts {i : Instr} {p : Params} {dev : Option Device} (hc : ∀ f, i ≠ .config f)
    (h : ∀ d, dev = some d → actsOf p d i = none) : Answers i dev := by
  by_cases hn : needsDevice i = true
  · cases dev with
    | none => exact .error .notConstructed (by decide) (by decide) fun s hd => exec_of_no_device hn hd
    | some d =>
      have ha := h d rfl
      cases i with
      | config | pack565 | expbmp => cases hn
      | getdim => exact .ok _ rfl fun s hd => withDevice_some hd
      | getrot => exact getrot_answers d
      | rotate n => exact rotate_answers n (by simpa [actsOf] using ha)
      | _ => simp [actsOf] at ha
  · cases i with
    | config f => exact absurd rfl (hc f)
    | pack565 r g b => exact .ok _ rfl fun _ _ => rfl
    | expbmp width fg bg olen src => exact expbmp_answers width fg bg olen src dev
    | _ => exact absurd rfl hn

/-- What an instruction other than CONFIG does is fixed by the inputs it reads, and it ends in the shape `ended`. -/
theorem exec_eq_ended {i : Instr} (s : State) (hc : ∀ f, i ≠ .config f) :
    ∃ done st v, Ends i s done st v ∧ ∀ s', SameInputs s s' → exec i s' = .next (ended done st v s') := by
  by_cases ha : ∃ d acts, s.device = some d ∧ actsOf s.params d i = some acts
  · obtain ⟨d, acts, hd, ha⟩ := ha
    obtain ⟨done, st, hp, hrun⟩ := drive_eq_ended acts (latchesOf i) s
    refine ⟨done, st, .empty, .drives hd ha hp, fun s' h => ?_⟩
    rw [exec_of_acts (h.device.trans hd) (by rw [h.params, ha]), hrun s' h]
  · have hno : ∀ d, s.device = some d → actsOf s.params d i = none := fun d hd =>
      Option.eq_none_iff_forall_ne_some.2 fun acts e => ha ⟨d, acts, hd, e⟩
    obtain ⟨st, v, hans, hx⟩ := answers_of_no_acts hc hno
    exact ⟨[], st, v, .answers hans, fun s' h => by rw [hx s' h.device, ended_nil v s' hans.ne_busError]⟩

/-- CONFIG writes no event, and its record and the Device it leaves are fixed by the run's parameters. -/
theorem execConfig_eq (f : ConfigFields) (s : State) :
    ∃ dev r, ∀ s', s'.params = s.params → ∃ t, exec (.config f) s' = .next t ∧ t.device = dev ∧ t.xfers = s'.xfers ∧
      t.trace = s'.trace ∧ t.records = s'.records ++ [r] := by
  change ∃ dev r, ∀ s', _ → ∃ t, execConfig f s' = _ ∧ _
  unfold execConfig
  dsimp only
  split
  · exact ⟨none, ⟨.constructLines, .empty⟩, fun s' _ => ⟨_, rfl, rfl, rfl, rfl, rfl⟩⟩
  · split
    · exact ⟨none, ⟨.constructGeometry, .empty⟩, fun s' _ => ⟨_, rfl, rfl, rfl, rfl, rfl⟩⟩
    · cases ho : configOrigin s.params f with
      | none =>
        refine ⟨none, ⟨.constructGeometry, .empty⟩, fun s' e => ?_⟩
        rw [e, ho]
        exact ⟨_, rfl, rfl, rfl, rfl, rfl⟩
      | some o =>
        refine ⟨some (configDevice f o), ⟨.ok, .empty⟩, fun s' e => ?_⟩
        rw [e, ho]
        exact ⟨_, rfl, rfl, rfl, rfl, rfl⟩

/-! O54: two runs from states with the same inputs. -/

/-- The actions a request performs write the Device from their own operands only. -/
theorem applyActs_device_congr (acts : List Act) {s s' : State} (h : s'.device = s.device) :
    (applyActs acts s').device = (applyActs acts s).device := by
  induction acts generalizing s s' with
  | nil => exact h
  | cons a rest ih =>
    have ha : (applyAct a s').device = (applyAct a s).device := by
      cases a with
      | device d => rfl
      | _ => exact h
    exact ih ha

/-- The events, the record, the Device and the transfer counter of an instruction are fixed by its inputs. -/
theorem exec_fixed_by_inputs (i : Instr) (s : State) :
    ∃ dev n evs r, ∀ s', SameInputs s s' → ∃ t, exec i s' = .next t ∧ t.device = dev ∧ t.xfers = n ∧
      t.trace = s'.trace ++ evs ∧ t.records = s'.records ++ [r] := by
  by_cases hc : ∃ f, i = .config f
  · obtain ⟨f, rfl⟩ := hc
    obtain ⟨dev, r, hx⟩ := execConfig_eq f s
    refine ⟨dev, s.xfers, [], r, fun s' h => ?_⟩
    obtain ⟨t, ht, hdev, hxf, htr, hrec⟩ := hx s' h.params
    exact ⟨t, ht, hdev, hxf.trans h.xfers, by rw [htr, List.append_nil], hrec⟩
  · obtain ⟨done, st, v, -, hx⟩ := exec_eq_ended s fun f e => hc ⟨f, e⟩
    refine ⟨(applyActs done s).device, s.xfers + xferCount (eventsOf done), eventsOf done, ⟨st, v⟩, fun s' h => ?_⟩
    obtain ⟨htr, hrec, -, hxf, -⟩ := completed_ended done st v s'
    refine ⟨_, hx s' h, ?_, by rw [hxf, h.xfers], htr, hrec⟩
    rw [ended_device, applyActs_device_congr done h.device]

/-- Settles O54: both runs are the one that their common inputs fix. -/
theorem onlyInputsMatter : Obligations.OnlyInputsMatter := by
  intro i s s' t t' hdev hpar hbus hxf ht ht'
  obtain ⟨dev, n, evs, r, hx⟩ := exec_fixed_by_inputs i s
  obtain ⟨u, hu, hd, hn, htr, hrec⟩ := hx s (.refl s)
  obtain ⟨u', hu', hd', hn', htr', hrec'⟩ := hx s' ⟨hdev, hpar, hbus, hxf⟩
  obtain rfl : u = t := Host.Outcome.next.inj (hu.symm.trans ht)
  obtain rfl : u' = t' := Host.Outcome.next.inj (hu'.symm.trans ht')
  exact ⟨hd'.trans hd.symm, hn'.trans hn.symm, evs, r, htr, htr', hrec, hrec'⟩

/-! O11: completion. -/

/-- `t` is `s` with one request completed by the record `r`: the port, the transient state and what the run fixes. -/
def CompletesOne (s t : State) (r : Record) : Prop :=
  t.rp = s.rp + 1 ∧ t.records = s.records ++ [r] ∧ (r.status ≠ .ok → r.value = .empty) ∧
    t.busy = false ∧ t.latches = none ∧ t.stage = none ∧ t.stream = none ∧ t.line = none ∧
    t.requests = s.requests ∧ t.params = s.params ∧ t.busScript = s.busScript

theorem completesOne_recorded {st : Status} {v : Value} (s : State) (hv : st ≠ .ok → v = .empty) :
    CompletesOne s (recorded s st v) ⟨st, v⟩ :=
  ⟨rfl, rfl, hv, rfl, rfl, rfl, rfl, rfl, rfl, rfl, rfl⟩

theorem completesOne_of_completed {s t : State} {evs : List Event} {st : Status} {v : Value}
    (h : Completed s t evs st v) (hv : st ≠ .ok → v = .empty) : CompletesOne s t ⟨st, v⟩ := by
  obtain ⟨-, hrec, hrp, -, -, -, -, -, hbusy, hlat, hstage, hstream, hline, hreq, hpar, hbus⟩ := h
  exact ⟨hrp, hrec, hv, hbusy, hlat, hstage, hstream, hline, hreq, hpar, hbus⟩

/-- Every instruction completes, from every state and whatever the bus reports. -/
theorem exec_completesOne (i : Instr) (s : State) : ∃ t r, exec i s = .next t ∧ CompletesOne s t r := by
  by_cases hc : ∃ f, i = .config f
  · obtain ⟨f, rfl⟩ := hc
    rcases execConfig_cases f s with ⟨st, -, hx⟩ | ⟨o, -, -, -, hx⟩
    · exact ⟨_, ⟨st, .empty⟩, hx, completesOne_recorded s fun _ => rfl⟩
    · exact ⟨_, ⟨.ok, .empty⟩, hx, completesOne_recorded s fun _ => rfl⟩
  · obtain ⟨done, st, v, hends, hx⟩ := exec_eq_ended s fun f e => hc ⟨f, e⟩
    exact ⟨_, _, hx s (.refl s), completesOne_of_completed (completed_ended done st v s) hends.empty_of_not_ok⟩

/-- Settles O11: the descriptor presented is rejected, or decodes to an instruction, which completes. -/
theorem stepCompletesOne : Obligations.StepCompletesOne := by
  intro s hb hlt
  have hp : s.requests[s.rp]? = some s.requests[s.rp] := List.getElem?_eq_getElem hlt
  cases hd : decode s.requests[s.rp] with
  | instr i =>
    rw [step_of_decodes hb hp hd]
    exact exec_completesOne i s
  | rejected r =>
    rw [step_of_rejects hb hp hd]
    exact ⟨_, _, rfl, completesOne_recorded s fun _ => rfl⟩

/-! What the actions of a rule may do on a Device. -/

/-- ROTATE turned the Device, which is of the variant that can (45_lifecycle.md R247). -/
def TurnOf (d d' : Device) : Prop := d.rotCap = true ∧ ∃ n, d' = rotateDevice d n

/-- The instructions that may write WIDTH, HEIGHT and ROTATION (10_state.md R22, R27). -/
def mayTurn : Instr → Bool
  | .rotate _ => true
  | .init => true
  | _ => false

/-- What an action of a rule respects on the Device `d`: no write to an absent line (R24, R25), no empty transfer (R40),
and no write of the configuration registers but a turn where turns are allowed. -/
def Permitted (d : Device) (turns : Bool) : Act → Prop
  | .cs _ => d.hasCs = true
  | .bl _ => d.hasBl = true
  | .xfer b => b ≠ []
  | .device d' => turns = true ∧ TurnOf d d'
  | _ => True

/-- All the actions respect the Device. -/
def AllPermitted (d : Device) (turns : Bool) (acts : List Act) : Prop := ∀ a ∈ acts, Permitted d turns a

section
variable {d : Device} {turns : Bool}

theorem AllPermitted.of_subset {acts done : List Act} (h : AllPermitted d turns acts) (hs : done ⊆ acts) :
    AllPermitted d turns done :=
  fun a ha => h a (hs ha)

@[simp] theorem allPermitted_nil : AllPermitted d turns [] := fun _ h => nomatch h

@[simp] theorem allPermitted_cons {a : Act} {acts : List Act} :
    AllPermitted d turns (a :: acts) ↔ Permitted d turns a ∧ AllPermitted d turns acts :=
  List.forall_mem_cons

@[simp] theorem allPermitted_append {a b : List Act} :
    AllPermitted d turns (a ++ b) ↔ AllPermitted d turns a ∧ AllPermitted d turns b :=
  List.forall_mem_append

theorem allPermitted_flatMap {α : Type} {xs : List α} {f : α → List Act}
    (h : ∀ x ∈ xs, AllPermitted d turns (f x)) : AllPermitted d turns (xs.flatMap f) := by
  intro a ha
  obtain ⟨x, hx, hax⟩ := List.mem_flatMap.1 ha
  exact h x hx a hax

@[simp] theorem allPermitted_csActs (l : Level) : AllPermitted d turns (csActs d l) := by
  unfold csActs
  split
  · simpa [Permitted]
  · simp

@[simp] theorem allPermitted_frameActs (cmd : Option Byte) (data : Bytes) :
    AllPermitted d turns (frameActs d cmd data) := by
  cases cmd <;> cases data <;> simp [frameActs, cmdActs, dataActs, Permitted]

@[simp] theorem allPermitted_ghostActs (cmd : Option Byte) : AllPermitted d turns (ghostActs cmd) := by
  cases cmd with
  | none => simp [ghostActs]
  | some c => cases hs : sleepAfter c <;> cases hg : displayAfter c <;> simp [ghostActs, hs, hg, Permitted]

@[simp] theorem allPermitted_sendActs (cmd : Option Byte) (data : Bytes) :
    AllPermitted d turns (sendActs d cmd data) := by
  simp [sendActs]

@[simp] theorem allPermitted_setwinActs (p : Params) (x0 y0 x1 y1 : Int) :
    AllPermitted d turns (setwinActs d p x0 y0 x1 y1) := by
  unfold setwinActs
  split <;> simp [casetActs, rasetActs, ramwrActs]

theorem ne_nil_of_mem_chunksOf {bytes b : Bytes} (h : b ∈ chunksOf bytes) : b ≠ [] := by
  obtain ⟨k, hk, rfl⟩ := List.mem_map.1 h
  have hlt := List.mem_range.1 hk
  simp only [ne_eq, List.take_eq_nil_iff, List.drop_eq_nil_iff]
  omega

theorem ne_nil_of_mem_streamTransfers {src : StreamSource} {bytes : Bytes} {u : StreamRegs × Bytes}
    (h : u ∈ streamTransfers src bytes) : u.2 ≠ [] :=
  ne_nil_of_mem_chunksOf (streamTransfers_bytes src bytes ▸ List.mem_map_of_mem h)

theorem allPermitted_streamDataActs {ts : List (StreamRegs × Bytes)} (h : ∀ u ∈ ts, u.2 ≠ []) :
    AllPermitted d turns (streamDataActs ts) := by
  cases ts with
  | nil => simp [streamDataActs]
  | cons t rest =>
    rw [streamDataActs, allPermitted_cons]
    exact ⟨trivial, allPermitted_flatMap fun u hu => by simpa [Permitted] using h u hu⟩

@[simp] theorem allPermitted_streamActs (p : Params) (src : StreamSource) (bytes : Bytes) :
    AllPermitted d turns (streamActs d p src bytes) := by
  unfold streamActs
  split
  · simp [allPermitted_streamDataActs fun _ => ne_nil_of_mem_streamTransfers]
  · exact allPermitted_flatMap fun u _ => by simp [Permitted]

@[simp] theorem allPermitted_sfillActs (p : Params) (color : Half) (count : Int) :
    AllPermitted d turns (sfillActs d p color count) := by
  simp [sfillActs, Permitted]

@[simp] theorem allPermitted_pixelActs (p : Params) (x y : Int) (color : Half) :
    AllPermitted d turns (pixelActs d p x y color) := by
  simp [pixelActs]

@[simp] theorem allPermitted_hlineActs (p : Params) (x y len : Int) (color : Half) :
    AllPermitted d turns (hlineActs d p x y len color) := by
  simp [hlineActs]

@[simp] theorem allPermitted_vlineActs (p : Params) (x y len : Int) (color : Half) :
    AllPermitted d turns (vlineActs d p x y len color) := by
  simp [vlineActs]

@[simp] theorem allPermitted_lineActs (p : Params) (x0 y0 x1 y1 : Int) (color : Half) :
    AllPermitted d turns (lineActs d p x0 y0 x1 y1 color) := by
  refine allPermitted_flatMap fun t _ => allPermitted_cons.2 ⟨trivial, ?_⟩
  rcases t with ⟨r, _ | c⟩
  · exact allPermitted_nil
  · cases c <;> simp [lineCallActs]

@[simp] theorem allPermitted_frectActs (p : Params) (x y w h : Int) (color : Half) :
    AllPermitted d turns (frectActs d p x y w h color) := by
  simp [frectActs]

@[simp] theorem allPermitted_hresetActs : AllPermitted d turns (hresetActs d) := by
  simp [hresetActs, panelResetActs, Permitted]

@[simp] theorem allPermitted_sresetActs : AllPermitted d turns (sresetActs d) := by
  simp [sresetActs, panelResetActs, Permitted]

@[simp] theorem allPermitted_backlightActs (l : Level) : AllPermitted d turns (backlightActs d l) := by
  unfold backlightActs
  split <;> simp [Permitted, *]

theorem allPermitted_rotateActs (p : Params) (n : Int) (hr : d.rotCap = true) :
    AllPermitted d true (rotateActs d p n) := by
  unfold rotateActs
  split
  · exact allPermitted_cons.2 ⟨⟨rfl, hr, _, rfl⟩, allPermitted_sendActs _ _⟩
  · simp

theorem allPermitted_initRotateActs (p : Params) : AllPermitted d true (initRotateActs d p) := by
  unfold initRotateActs
  split
  · rename_i h
    exact allPermitted_rotateActs p _ h.1
  · simp

theorem allPermitted_initActs (p : Params) : AllPermitted d true (initActs d p) := by
  simp [initActs, allPermitted_initRotateActs, slpoutActs, colmodActs, madctlActs, invonActs, noronActs, disponActs,
    Permitted]

end

/-- The actions an instruction drives on a Device respect it. -/
theorem allPermitted_actsOf {p : Params} {d : Device} {i : Instr} {acts : List Act} (ha : actsOf p d i = some acts) :
    AllPermitted d (mayTurn i) acts := by
  cases i with
  | config | pack565 | expbmp | getrot | getdim => cases ha
  | rotate n =>
    obtain ⟨hr, rfl⟩ : d.rotCap = true ∧ rotateActs d p (sext16 n) = acts := by simpa [actsOf] using ha
    exact allPermitted_rotateActs p _ hr
  | init => cases ha; exact allPermitted_initActs p
  | sleep en => cases en <;> cases ha <;> exact allPermitted_sendActs _ _
  | invert en => cases en <;> cases ha <;> exact allPermitted_sendActs _ _
  | swreset | slpin | slpout | noron | invoff | invon | dispon | caset | raset | ramwr | madctl | colmod =>
    cases ha
    exact allPermitted_sendActs _ _
  | _ =>
    cases ha
    simp [blitActs, rectActs, fillActs]

/-! What performing permitted actions does to the Device, the absent lines and the transfers. -/

section
variable {d : Device} {turns : Bool} {acts : List Act}

theorem lastCs_of_permitted (h : AllPermitted d turns acts) (hcs : d.hasCs = false) :
    lastCs (eventsOf acts) = none := by
  induction acts with
  | nil => rfl
  | cons a rest ih =>
    obtain ⟨ha, hrest⟩ := allPermitted_cons.1 h
    rw [eventsOf_cons, lastCs_append, ih hrest]
    cases a with
    | cs l => exact absurd (hcs.symm.trans ha) (by decide)
    | _ => rfl

theorem lastBl_of_permitted (h : AllPermitted d turns acts) (hbl : d.hasBl = false) :
    lastBl (eventsOf acts) = none := by
  induction acts with
  | nil => rfl
  | cons a rest ih =>
    obtain ⟨ha, hrest⟩ := allPermitted_cons.1 h
    rw [eventsOf_cons, lastBl_append, ih hrest]
    cases a with
    | bl l => exact absurd (hbl.symm.trans ha) (by decide)
    | _ => rfl

theorem transfers_of_permitted (h : AllPermitted d turns acts) : ∀ b ∈ transfersOf (eventsOf acts), b ≠ [] := by
  induction acts with
  | nil => exact fun b hb => nomatch hb
  | cons a rest ih =>
    obtain ⟨ha, hrest⟩ := allPermitted_cons.1 h
    intro b hb
    rw [eventsOf_cons, transfersOf_append, List.mem_append] at hb
    rcases hb with hb | hb
    · cases a with
      | xfer c => exact List.mem_singleton.1 hb ▸ ha
      | _ => cases hb
    · exact ih hrest b hb

/-- The Device after permitted actions is the Device, or a turn of it. -/
theorem applyActs_device_of_permitted {s : State} {d0 : Device} (h : AllPermitted d turns acts)
    (hs : s.device = some d0) (h0 : d0 = d ∨ turns = true ∧ TurnOf d d0) :
    ∃ d', (applyActs acts s).device = some d' ∧ (d' = d ∨ turns = true ∧ TurnOf d d') := by
  induction acts generalizing s d0 with
  | nil => exact ⟨d0, hs, h0⟩
  | cons a rest ih =>
    obtain ⟨ha, hrest⟩ := allPermitted_cons.1 h
    cases a with
    | device d1 => exact ih hrest rfl (.inr ha)
    | _ => exact ih hrest hs h0

end

/-- What ROTATE leaves of the Device (45_lifecycle.md R247): the size changes places at most. -/
theorem rotateDevice_eq (d : Device) (n : BitVec 2) :
    ∃ w h, ((w = d.width ∧ h = d.height) ∨ (w = d.height ∧ h = d.width)) ∧
      rotateDevice d n = { d with width := w, height := h, rotation := n } := by
  unfold rotateDevice
  split
  · exact ⟨_, _, .inl ⟨rfl, rfl⟩, rfl⟩
  · exact ⟨_, _, .inr ⟨rfl, rfl⟩, rfl⟩

/-! O59: the invariant. -/

/-- A latch last written by the new events, or else holding the level of the old ones, holds the level of them all. -/
theorem latch_or {α : Type} {old latch new : Option α} (h : ∀ a, latch = some a → old = some a) :
    ∀ a, new.or latch = some a → new.or old = some a := by
  cases new with
  | none => exact h
  | some b => exact fun _ hb => hb

/-- A completed request keeps the invariant when its record, FAULT, its transfers and the Device are as the invariant
asks; the latches and the counters follow from `Completed`. -/
theorem inv_of_completed {s t : State} {evs : List Event} {st : Status} {v : Value} (hs : s.Inv)
    (hc : Completed s t evs st v) (hf : t.fault = true ↔ s.fault = true ∨ st = .busError) (hv : st ≠ .ok → v = .empty)
    (hx : ∀ b ∈ transfersOf evs, b ≠ []) (hd : ∀ d, t.device = some d → DeviceInv t d) : t.Inv := by
  obtain ⟨-, -, -, -, -, hlen, hxf, hne, hfault, hval, -, hlatch⟩ := hs
  obtain ⟨htr, hrec, hrp, hxf', hcs, hdc, hrst, hbl, hbusy, hlat, hstage, hstream, hline, -, -, -⟩ := hc
  obtain ⟨lcs, ldc, lrst, lbl⟩ := hlatch
  refine ⟨hbusy, hlat, hstage, hstream, hline, ?_, ?_, ?_, ?_, ?_, hd, ?_⟩
  · rw [hrec, hrp, List.length_append, hlen]
    rfl
  · rw [hxf', htr, xferCount_append, hxf]
  · rw [htr, transfersOf_append]
    exact List.forall_mem_append.2 ⟨hne, hx⟩
  · simp [hf, hrec, hfault, or_and_right, exists_or]
  · rw [hrec]
    exact List.forall_mem_append.2 ⟨hval, List.forall_mem_singleton.2 hv⟩
  · rw [LatchInv, htr, hcs, hdc, hrst, hbl, lastCs_append, lastDc_append, lastRst_append, lastBl_append]
    exact ⟨latch_or lcs, latch_or ldc, latch_or lrst, latch_or lbl⟩

theorem DeviceInv.turn {s : State} {d d' : Device} (h : DeviceInv s d) (ht : TurnOf d d') : DeviceInv s d' := by
  obtain ⟨hw, hh, -, hcs, hbl⟩ := h
  obtain ⟨hr, n, rfl⟩ := ht
  obtain ⟨w, h, hwh, he⟩ := rotateDevice_eq d n
  rw [he]
  refine ⟨?_, ?_, fun hf => absurd (hr.symm.trans hf) (by decide), hcs, hbl⟩
  · rcases hwh with ⟨rfl, rfl⟩ | ⟨rfl, rfl⟩ <;> assumption
  · rcases hwh with ⟨rfl, rfl⟩ | ⟨rfl, rfl⟩ <;> assumption

/-- The latches of absent lines after permitted actions. -/
theorem DeviceInv.of_permitted {s t : State} {d : Device} {turns : Bool} {acts : List Act} (h : DeviceInv s d)
    (hp : AllPermitted d turns acts) (hcs : t.lCs = (lastCs (eventsOf acts)).or s.lCs)
    (hbl : t.lBl = (lastBl (eventsOf acts)).or s.lBl) : DeviceInv t d := by
  obtain ⟨hw, hh, hr, hcs0, hbl0⟩ := h
  refine ⟨hw, hh, hr, fun hf => ?_, fun hf => ?_⟩
  · rw [hcs, lastCs_of_permitted hp hf, hcs0 hf]
    rfl
  · rw [hbl, lastBl_of_permitted hp hf, hbl0 hf]
    rfl

theorem inv_recorded {s : State} {st : Status} {v : Value} (hs : s.Inv) (hst : st ≠ .busError)
    (hv : st ≠ .ok → v = .empty) : (recorded s st v).Inv := by
  have hc : Completed s (recorded s st v) [] st v := ended_nil v s hst ▸ completed_ended [] st v s
  obtain ⟨-, -, -, -, -, -, -, -, -, -, hd, -⟩ := id hs
  exact inv_of_completed hs hc ⟨.inl, fun h => h.resolve_right hst⟩ hv (fun b hb => nomatch hb) hd

theorem inv_dropDevice {s : State} (hs : s.Inv) : (dropDevice s).Inv := by
  obtain ⟨hbusy, hlat, hstage, hstream, hline, hlen, hxf, hne, hfault, hval, -, hlatch⟩ := hs
  exact ⟨hbusy, hlat, hstage, hstream, hline, hlen, hxf, hne, hfault, hval, (fun d h => nomatch h), hlatch⟩

/-- A Device constructed has no latch with a value (10_state.md R44), so only its registers matter. -/
theorem inv_constructDevice {s : State} {d : Device} (hs : s.Inv) (hw : d.width ≠ 0) (hh : d.height ≠ 0)
    (hr : d.rotCap = false → d.rotReq = 0 ∧ d.rotation = 0) : (constructDevice d s).Inv := by
  obtain ⟨hbusy, hlat, hstage, hstream, hline, hlen, hxf, hne, hfault, hval, -, -⟩ := hs
  have hpos : ∀ x : Half, x ≠ 0 → 0 < x.toNat := fun x hx => Nat.pos_of_ne_zero fun e => hx (BitVec.eq_of_toNat_eq e)
  refine ⟨hbusy, hlat, hstage, hstream, hline, hlen, hxf, hne, hfault, hval, ?_, ?_⟩
  · intro d' hd
    cases hd
    exact ⟨hpos _ hw, hpos _ hh, hr, fun _ => rfl, fun _ => rfl⟩
  · simp [LatchInv]

theorem execConfig_keeps_inv {f : ConfigFields} {s t : State} (hs : s.Inv) (ht : exec (.config f) s = .next t) :
    t.Inv := by
  rcases execConfig_cases f s with ⟨st, hst, hx⟩ | ⟨o, -, hw, hh, hx⟩
  · obtain rfl := Host.Outcome.next.inj (hx.symm.trans ht)
    exact inv_dropDevice (inv_recorded hs (by rcases hst with rfl | rfl <;> decide) fun _ => rfl)
  · obtain rfl := Host.Outcome.next.inj (hx.symm.trans ht)
    refine inv_constructDevice (inv_recorded hs (by decide) fun _ => rfl) hw hh fun hr => ⟨?_, rfl⟩
    exact if_neg (Bool.eq_false_iff.1 hr)

theorem ended_keeps_inv {i : Instr} {s : State} {done : List Act} {st : Status} {v : Value} (hs : s.Inv)
    (h : Ends i s done st v) : (ended done st v s).Inv := by
  cases h with
  | answers h => exact ended_nil v s h.ne_busError ▸ inv_recorded hs h.ne_busError h.empty_of_not_ok
  | drives hd ha hp =>
    rename_i d acts
    have hperm := (allPermitted_actsOf ha).of_subset hp.subset
    have hc := completed_ended done st .empty s
    refine inv_of_completed hs hc (ended_fault_iff ..) (fun _ => rfl) (transfers_of_permitted hperm) ?_
    obtain ⟨-, -, -, -, -, -, -, -, -, -, hdev, -⟩ := hs
    obtain ⟨-, -, -, -, hcs, -, -, hbl, -⟩ := hc
    have hkept : DeviceInv (ended done st .empty s) d := (hdev d hd).of_permitted hperm hcs hbl
    obtain ⟨d', hd', hturn⟩ := applyActs_device_of_permitted hperm hd (.inl rfl)
    intro d'' hd''
    rw [ended_device, hd'] at hd''
    cases hd''
    rcases hturn with rfl | ⟨-, hturn⟩
    · exact hkept
    · exact hkept.turn hturn

theorem exec_keeps_inv {i : Instr} {s t : State} (hs : s.Inv) (ht : exec i s = .next t) : t.Inv := by
  by_cases hc : ∃ f, i = .config f
  · obtain ⟨f, rfl⟩ := hc
    exact execConfig_keeps_inv hs ht
  · obtain ⟨done, st, v, hends, hx⟩ := exec_eq_ended s fun f e => hc ⟨f, e⟩
    obtain rfl := Host.Outcome.next.inj ((hx s (.refl s)).symm.trans ht)
    exact ended_keeps_inv hs hends

/-- Settles O59: a step waits, refuses a descriptor or runs an instruction, and each keeps the invariant. -/
theorem stepKeepsInv : Obligations.StepKeepsInv := by
  intro s t hs ht
  rcases step_cases s with hx | ⟨_, _, -, -, -, hx⟩ | ⟨_, i, -, -, -, hx⟩
  · exact Host.Outcome.next.inj (hx.symm.trans ht) ▸ hs
  · exact Host.Outcome.next.inj (hx.symm.trans ht) ▸ inv_recorded hs (by decide) fun _ => rfl
  · exact exec_keeps_inv hs (hx.symm.trans ht)

/-! The ghost variables over a sequence of actions. -/

/-- An action that writes a ghost variable. -/
def writesGhost : Act → Bool
  | .life _ => true
  | .sleep _ => true
  | .disp _ => true
  | _ => false

/-- Actions that write no ghost variable. -/
def GhostFree (acts : List Act) : Prop := ∀ a ∈ acts, writesGhost a = false

theorem ghostFree_of_quiet {acts : List Act} (h : Quiet acts) : GhostFree acts := by
  intro a ha
  have hq := List.all_eq_true.1 h a ha
  cases a with
  | life | sleep | disp => cases hq
  | _ => rfl

theorem applyActs_keepsGhosts {acts : List Act} (h : GhostFree acts) (s : State) :
    KeepsGhosts s (applyActs acts s) := by
  induction acts generalizing s with
  | nil => exact ⟨rfl, rfl, rfl⟩
  | cons a rest ih =>
    obtain ⟨ha, hrest⟩ := List.forall_mem_cons.1 h
    cases a with
    | life | sleep | disp => cases ha
    | _ => exact ih hrest _

theorem sleepAfter_eq_ghostSleep (c : Byte) : sleepAfter c = ghostSleep c := by
  by_cases hin : c = cmdSlpin
  · subst hin
    rfl
  · by_cases hreset : c = cmdSwreset
    · subst hreset
      rfl
    · have hneither : ¬(c = 0x10 ∨ c = 0x01) := not_or.2 ⟨hin, hreset⟩
      rw [sleepAfter, ghostSleep, if_neg hin, if_neg hreset, if_neg hneither]
      rfl

theorem displayAfter_eq_ghostDisplay (c : Byte) : displayAfter c = ghostDisplay c := rfl

/-- The ghost writes of a frame (41_command_framing.md R146). -/
theorem applyActs_ghostActs (cmd : Option Byte) (s : State) :
    (applyActs (ghostActs cmd) s).gLife = s.gLife ∧
      (applyActs (ghostActs cmd) s).gSleep = (cmd.bind ghostSleep).or s.gSleep ∧
      (applyActs (ghostActs cmd) s).gDisp = (cmd.bind ghostDisplay).or s.gDisp := by
  cases cmd with
  | none => exact ⟨rfl, rfl, rfl⟩
  | some c =>
    rw [ghostActs, sleepAfter_eq_ghostSleep, displayAfter_eq_ghostDisplay, Option.bind_some, Option.bind_some]
    cases ghostSleep c <;> cases ghostDisplay c <;> exact ⟨rfl, rfl, rfl⟩

theorem xfer_notMem_ghostActs (cmd : Option Byte) (b : Bytes) : Act.xfer b ∉ ghostActs cmd := by
  cases cmd <;> simp [ghostActs]

/-- What is performed up to a failed transfer lies before a tail without transfers. -/
theorem subset_of_cut {body tail before after : List Act} {b : Bytes}
    (h : body ++ tail = before ++ .xfer b :: after) (ht : .xfer b ∉ tail) : before ++ [.xfer b] ⊆ body := by
  rcases List.append_eq_append_iff.1 h with ⟨mid, -, he⟩ | ⟨mid, rfl, he⟩
  · exact absurd (he ▸ by simp) ht
  · cases mid with
    | nil =>
      rw [List.nil_append] at he
      exact absurd (he ▸ by simp) ht
    | cons a rest =>
      obtain ⟨rfl, -⟩ := List.cons.inj he
      simp

theorem quiet_backlightActs (d : Device) (l : Level) : Quiet (backlightActs d l) := by
  unfold backlightActs
  split <;> rfl

/-- The frame of ROTATE writes no ghost, its command byte being none that R146 names. -/
theorem ghostFree_rotateActs (d : Device) (p : Params) (n : Int) : GhostFree (rotateActs d p n) := by
  unfold rotateActs
  split
  · exact List.forall_mem_cons.2 ⟨rfl, ghostFree_of_quiet (quiet_sendActs d _ _ (by decide) (by decide))⟩
  · exact fun _ h => nomatch h

/-- An instruction that does not reset the panel writes the ghosts by its command byte only, at its end (R146). -/
theorem actsOf_of_not_resets {p : Params} {d : Device} {i : Instr} {acts : List Act} (hr : resetsPanel i = false)
    (ha : actsOf p d i = some acts) : ∃ body, acts = body ++ ghostActs (frameCommand i) ∧ GhostFree body := by
  have framed : ∀ (cmd : Option Byte) (data : Bytes), sendActs d cmd data = acts →
      ∃ body, acts = body ++ ghostActs cmd ∧ GhostFree body :=
    fun cmd data e => ⟨_, e.symm, ghostFree_of_quiet (quiet_frameActs d cmd data)⟩
  have quiet : Quiet acts → ∃ body, acts = body ++ ghostActs none ∧ GhostFree body :=
    fun hq => ⟨acts, (List.append_nil acts).symm, ghostFree_of_quiet hq⟩
  cases i with
  | config | pack565 | expbmp | getrot | getdim => cases ha
  | hreset | sreset | init => cases hr
  | sleep en => cases en <;> exact framed _ _ (Option.some.inj ha)
  | invert en => cases en <;> exact framed _ _ (Option.some.inj ha)
  | rotate n =>
    obtain ⟨-, rfl⟩ : d.rotCap = true ∧ rotateActs d p (sext16 n) = acts := by simpa [actsOf] using ha
    exact ⟨_, (List.append_nil _).symm, ghostFree_rotateActs d p _⟩
  | send | swreset | slpin | slpout | noron | invoff | invon | dispon | caset | raset | ramwr | madctl | colmod =>
    exact framed _ _ (Option.some.inj ha)
  | setwin => cases ha; exact quiet (quiet_setwinActs ..)
  | sfill => cases ha; exact quiet (quiet_sfillActs ..)
  | blit => cases ha; exact quiet (quiet_blitActs ..)
  | pixel => cases ha; exact quiet (quiet_pixelActs ..)
  | hline => cases ha; exact quiet (quiet_hlineActs ..)
  | vline => cases ha; exact quiet (quiet_vlineActs ..)
  | line => cases ha; exact quiet (quiet_lineActs ..)
  | rect => cases ha; exact quiet (quiet_rectActs ..)
  | frect => cases ha; exact quiet (quiet_frectActs ..)
  | fill => cases ha; exact quiet (quiet_frectActs ..)
  | blon => cases ha; exact quiet (quiet_backlightActs ..)
  | bloff => cases ha; exact quiet (quiet_backlightActs ..)

/-- The ghosts after an instruction that does not reset the panel, on every path. -/
theorem ghostsFollow_ended {i : Instr} {s : State} {done : List Act} {st : Status} {v : Value}
    (hr : resetsPanel i = false) (h : Ends i s done st v) : GhostsFollow i s (ended done st v s) ⟨st, v⟩ := by
  cases h with
  | answers h =>
    rw [ended_nil v s h.ne_busError]
    by_cases hok : st = .ok
    · exact (ghostsFollow_of_keeps (h.no_frame_of_ok hok)).2 ⟨rfl, rfl, rfl⟩
    · exact (ghostsFollow_of_not_ok hok).2 ⟨rfl, rfl, rfl⟩
  | drives hd ha hp =>
    obtain ⟨body, rfl, hbody⟩ := actsOf_of_not_resets hr ha
    cases hp with
    | all =>
      obtain ⟨hl, hs, hg⟩ := applyActs_keepsGhosts hbody s
      obtain ⟨hl', hs', hg'⟩ := applyActs_ghostActs (frameCommand i) (applyActs body s)
      rw [GhostsFollow, if_pos rfl]
      simp only [ended_gLife, ended_gSleep, ended_gDisp, applyActs_append]
      exact ⟨hl'.trans hl, hs'.trans (by rw [hs]), hg'.trans (by rw [hg])⟩
    | cut hcut =>
      have hsub := subset_of_cut hcut (xfer_notMem_ghostActs _ _)
      refine (ghostsFollow_of_not_ok (by decide)).2 ?_
      exact applyActs_keepsGhosts (fun a ha => hbody a (hsub ha)) s

/-! `G_LIFE` over the instructions that reset the panel. -/

/-- An action that writes `G_LIFE`, if at all, to Resetting or Initializing (10_state.md R51). -/
def RisingAct : Act → Prop
  | .life g => g = .resetting ∨ g = .initializing
  | _ => True

/-- Actions that write `G_LIFE`, if at all, to Resetting or Initializing. -/
def Rising (acts : List Act) : Prop := ∀ a ∈ acts, RisingAct a

theorem rising_of_ghostFree {acts : List Act} (h : GhostFree acts) : Rising acts := by
  intro a ha
  cases a with
  | life g => exact nomatch h _ ha
  | _ => trivial

theorem rising_of_quiet {acts : List Act} (h : Quiet acts) : Rising acts := rising_of_ghostFree (ghostFree_of_quiet h)

@[simp] theorem rising_nil : Rising [] := fun _ h => nomatch h

@[simp] theorem rising_cons {a : Act} {acts : List Act} : Rising (a :: acts) ↔ RisingAct a ∧ Rising acts :=
  List.forall_mem_cons

@[simp] theorem rising_append {a b : List Act} : Rising (a ++ b) ↔ Rising a ∧ Rising b :=
  List.forall_mem_append

@[simp] theorem rising_frameActs (d : Device) (cmd : Option Byte) (data : Bytes) : Rising (frameActs d cmd data) :=
  rising_of_quiet (quiet_frameActs d cmd data)

@[simp] theorem rising_sendActs (d : Device) (cmd : Option Byte) (data : Bytes) : Rising (sendActs d cmd data) := by
  refine rising_append.2 ⟨rising_frameActs d cmd data, ?_⟩
  cases cmd with
  | none => exact rising_nil
  | some c => cases hs : sleepAfter c <;> cases hg : displayAfter c <;> simp [ghostActs, hs, hg, RisingAct]

@[simp] theorem rising_hresetActs (d : Device) : Rising (hresetActs d) := by
  simp [hresetActs, rising_of_quiet (quiet_csActs d _), panelResetActs, RisingAct]

@[simp] theorem rising_sresetActs (d : Device) : Rising (sresetActs d) := by
  simp [sresetActs, panelResetActs, RisingAct]

theorem rising_initRotateActs (d : Device) (p : Params) : Rising (initRotateActs d p) := by
  unfold initRotateActs
  split
  · exact rising_of_ghostFree (ghostFree_rotateActs d p _)
  · exact rising_nil

/-- INIT raises the life of the panel step by step and ends it at Ready, after its last transfer (45_lifecycle.md R240). -/
theorem initActs_eq (d : Device) (p : Params) :
    ∃ body, initActs d p = (.life .resetting :: body) ++ [.life .ready] ∧ Rising body := by
  refine ⟨_, rfl, ?_⟩
  simp [rising_of_quiet (quiet_csActs d _), rising_of_quiet (quiet_frectActs d p _ _ _ _ _), rising_initRotateActs,
    slpoutActs, colmodActs, madctlActs, invonActs, noronActs, disponActs, panelResetActs, RisingAct]

/-- Rising actions leave `G_LIFE` as it was, or Resetting or Initializing. -/
theorem applyActs_gLife_of_rising {acts : List Act} (h : Rising acts) (s : State) :
    (applyActs acts s).gLife = s.gLife ∨ (applyActs acts s).gLife = some .resetting ∨
      (applyActs acts s).gLife = some .initializing := by
  induction acts generalizing s with
  | nil => exact .inl rfl
  | cons a rest ih =>
    obtain ⟨ha, hrest⟩ := rising_cons.1 h
    cases a with
    | life g =>
      rcases ih hrest (applyAct (.life g) s) with hkept | hrisen
      · rcases ha with rfl | rfl
        · exact .inr (.inl hkept)
        · exact .inr (.inr hkept)
      · exact .inr hrisen
    | _ => exact ih hrest _

theorem ready_of_rising {acts : List Act} {s : State} (h : Rising acts)
    (hready : (applyActs acts s).gLife = some .ready) : s.gLife = some .ready := by
  rcases applyActs_gLife_of_rising h s with hkept | hr | hi
  · exact hkept ▸ hready
  · exact nomatch hr.symm.trans hready
  · exact nomatch hi.symm.trans hready

/-- An INIT stopped by a failed transfer has written Resetting and not yet Ready. -/
theorem gLife_of_init_cut {d : Device} {p : Params} {before after : List Act} {b : Bytes}
    (h : initActs d p = before ++ .xfer b :: after) (s : State) :
    (applyActs (before ++ [.xfer b]) s).gLife = some .resetting ∨
      (applyActs (before ++ [.xfer b]) s).gLife = some .initializing := by
  obtain ⟨body, he, hbody⟩ := initActs_eq d p
  rw [he] at h
  have hwhole : Rising (.life .resetting :: body) := rising_cons.2 ⟨Or.inl rfl, hbody⟩
  have hrising : Rising (before ++ [.xfer b]) := fun a ha => hwhole a (subset_of_cut h (by simp) ha)
  cases before with
  | nil => cases h
  | cons a rest =>
    obtain ⟨rfl, -⟩ := List.cons.inj h
    rcases applyActs_gLife_of_rising (rising_cons.1 hrising).2 (applyAct (.life .resetting) s) with hkept | hrisen
    · exact .inl hkept
    · exact hrisen

theorem gLife_of_ghostsFollow {i : Instr} {s t : State} {r : Record} (h : GhostsFollow i s t r) :
    t.gLife = s.gLife := by
  unfold GhostsFollow at h
  split at h
  · exact h.1
  · exact h.1

/-- An INIT that ends with BUS_ERROR (10_state.md R51). -/
theorem gLife_ended_init {s : State} {done : List Act} {v : Value} (h : Ends .init s done .busError v) :
    (ended done .busError v s).gLife = some .resetting ∨ (ended done .busError v s).gLife = some .initializing := by
  rw [ended_gLife]
  cases h with
  | answers h => exact absurd rfl h.ne_busError
  | drives hd ha hp =>
    cases ha
    cases hp with
    | cut hcut => exact gLife_of_init_cut hcut s

/-- Only an INIT that ends with OK reaches Ready (10_state.md R51). -/
theorem ready_of_ended {i : Instr} {s : State} {done : List Act} {st : Status} {v : Value} (h : Ends i s done st v)
    (hready : (ended done st v s).gLife = some .ready) : s.gLife = some .ready ∨ (i = .init ∧ st = .ok) := by
  cases hr : resetsPanel i with
  | false => exact .inl (gLife_of_ghostsFollow (ghostsFollow_ended hr h) ▸ hready)
  | true =>
    rw [ended_gLife] at hready
    cases h with
    | answers h => exact .inl hready
    | drives hd ha hp =>
      cases i with
      | hreset =>
        cases ha
        exact .inl (ready_of_rising (fun a ha => rising_hresetActs _ a (hp.subset ha)) hready)
      | sreset =>
        cases ha
        exact .inl (ready_of_rising (fun a ha => rising_sresetActs _ a (hp.subset ha)) hready)
      | init =>
        cases ha
        cases hp with
        | all => exact .inr ⟨rfl, rfl⟩
        | cut hcut =>
          rcases gLife_of_init_cut hcut s with hl | hl
          · exact nomatch hl.symm.trans hready
          · exact nomatch hl.symm.trans hready
      | _ => cases hr

/-! O57: the frame of every instruction but CONFIG. -/

theorem device_ended_of_none {i : Instr} {s : State} {done : List Act} {st : Status} {v : Value}
    (h : Ends i s done st v) (hd : s.device = none) : (ended done st v s).device = none := by
  rw [ended_device]
  cases h with
  | answers h => exact hd
  | drives hd' ha hp => exact nomatch hd.symm.trans hd'

/-- A Device stays, and is as before or turned by an instruction that may turn it. -/
theorem device_ended_of_some {i : Instr} {s : State} {d : Device} {done : List Act} {st : Status} {v : Value}
    (h : Ends i s done st v) (hd : s.device = some d) :
    ∃ d', (ended done st v s).device = some d' ∧ (d' = d ∨ mayTurn i = true ∧ TurnOf d d') := by
  rw [ended_device]
  cases h with
  | answers h => exact ⟨d, hd, .inl rfl⟩
  | drives hd' ha hp =>
    cases hd.symm.trans hd'
    exact applyActs_device_of_permitted ((allPermitted_actsOf ha).of_subset hp.subset) hd (.inl rfl)

/-- What a turn keeps: the origin, the capabilities and the requested rotation (10_state.md R23 to R26, R28). -/
theorem TurnOf.keeps {d d' : Device} (h : TurnOf d d') :
    d'.xstart = d.xstart ∧ d'.ystart = d.ystart ∧ d'.hasCs = d.hasCs ∧ d'.hasBl = d.hasBl ∧ d'.rotCap = d.rotCap ∧
      d'.rotReq = d.rotReq := by
  obtain ⟨-, n, rfl⟩ := h
  obtain ⟨w, h, -, he⟩ := rotateDevice_eq d n
  rw [he]
  exact ⟨rfl, rfl, rfl, rfl, rfl, rfl⟩

theorem mayTurn_eq_false {i : Instr} (hr : ∀ n, i ≠ .rotate n) (hi : i ≠ .init) : mayTurn i = false := by
  cases i with
  | rotate n => exact absurd rfl (hr n)
  | init => exact absurd rfl hi
  | _ => rfl

/-- Settles O57: the instruction ends in the shape `ended`, whose Device, lines and ghosts are those of the actions
performed. -/
theorem registersKept : Obligations.RegistersKept := by
  intro i s t hc ht
  obtain ⟨done, st, v, hends, hx⟩ := exec_eq_ended s hc
  obtain rfl := Host.Outcome.next.inj ((hx s (.refl s)).symm.trans ht)
  obtain ⟨htr, hrec, -, hxf, hcs, hdc, hrst, hbl, -, -, -, -, -, hreq, hpar, hbus⟩ := completed_ended done st v s
  refine ⟨device_ended_of_none hends, fun d hd => ?_,
    ⟨eventsOf done, htr, hcs, hdc, hrst, hbl, hxf, hreq, hpar, hbus⟩,
    ⟨st, v⟩, hrec, fun hr => ghostsFollow_ended hr hends, ?_, ready_of_ended hends⟩
  · obtain ⟨d', hd', rfl | ⟨hm, hturn⟩⟩ := device_ended_of_some hends hd
    · exact ⟨d', hd', rfl, rfl, rfl, rfl, rfl, rfl, fun _ _ => rfl⟩
    · obtain ⟨hxs, hys, hhcs, hhbl, hcap, hreq⟩ := hturn.keeps
      refine ⟨d', hd', hxs, hys, hhcs, hhbl, hcap, hreq, fun hr hi => ?_⟩
      rw [mayTurn_eq_false hr hi] at hm
      cases hm
  · rintro rfl rfl
    exact gLife_ended_init hends

end Sys2Proof
end

section
/-! The command bytes an instruction puts on the wire (20_memory.md R75, 30_encoding.md R98): a property of the actions of
the rules, kept by sequencing, and what it says of the trace. -/

namespace Sys2Proof

open Machine

/-- Actions that set the line to command mode only to transfer, right after, one of the twelve command bytes. -/
inductive OwnCommands : List Act → Prop where
  | nil : OwnCommands []
  | command {c : Byte} {acts : List Act} (hc : c ∈ commandCodes) (h : OwnCommands acts) :
    OwnCommands (.dc .cmd :: .xfer [c] :: acts)
  | other {a : Act} {acts : List Act} (ha : a ≠ .dc .cmd) (h : OwnCommands acts) : OwnCommands (a :: acts)

/-! What the property says of the trace. -/

theorem commandBytes_cons_of_no_command {e : Event} {evs : List Event}
    (h : ∀ b rest, e = .dc .cmd → evs = .xfer b :: rest → False) : commandBytes (e :: evs) = commandBytes evs := by
  rw [commandBytes]
  exact h

theorem commandBytes_cons_of_ne {e : Event} (he : e ≠ .dc .cmd) (evs : List Event) :
    commandBytes (e :: evs) = commandBytes evs :=
  commandBytes_cons_of_no_command fun _ _ h _ => he h

/-- An action that does not set command mode sends no command byte. -/
theorem commandBytes_eventsOf_cons_of_ne {a : Act} (ha : a ≠ .dc .cmd) (acts : List Act) :
    commandBytes (eventsOf (a :: acts)) = commandBytes (eventsOf acts) := by
  rw [eventsOf_cons]
  cases a with
  | dc m => exact commandBytes_cons_of_ne (fun h => ha (congrArg Act.dc (Event.dc.inj h))) _
  | cs | rst | bl | delay | xfer => exact commandBytes_cons_of_ne (by simp) _
  | device | stage | stream | line | life | sleep | disp => rfl

theorem OwnCommands.mem_commandCodes {acts : List Act} (h : OwnCommands acts) :
    ∀ b ∈ commandBytes (eventsOf acts), ∃ c ∈ commandCodes, b = [c] := by
  induction h with
  | nil => exact fun b hb => nomatch hb
  | command hc _ ih => exact List.forall_mem_cons.2 ⟨⟨_, hc, rfl⟩, ih⟩
  | other ha _ ih => rwa [commandBytes_eventsOf_cons_of_ne ha]

/-- The command bytes of a trace that was cut are the first of the whole trace's. -/
theorem commandBytes_prefix_append (a b : List Event) : commandBytes a <+: commandBytes (a ++ b) := by
  induction a using commandBytes.induct with
  | case1 x rest ih => exact (List.prefix_cons_inj x).2 ih
  | case2 e rest hne ih =>
    cases rest with
    | nil => simp [commandBytes]
    | cons f rest =>
      have hwhole : ∀ x more, e = .dc .cmd → f :: (rest ++ b) = .xfer x :: more → False :=
        fun x _ he hf => hne x rest he (by rw [(List.cons.inj hf).1])
      rw [commandBytes_cons_of_no_command hne, List.cons_append, List.cons_append,
        commandBytes_cons_of_no_command hwhole]
      exact ih
  | case3 => exact List.nil_prefix

/-- Also of what is performed up to a failed transfer (60_exceptions.md R266). -/
theorem OwnCommands.performed {acts done : List Act} {st : Status} (h : OwnCommands acts)
    (hp : Performed acts done st) : ∀ b ∈ commandBytes (eventsOf done), ∃ c ∈ commandCodes, b = [c] := by
  cases hp with
  | all => exact h.mem_commandCodes
  | @cut before after b e =>
    have hsplit : eventsOf acts = eventsOf (before ++ [.xfer b]) ++ eventsOf after := by
      rw [e, ← eventsOf_append, List.append_assoc]
      rfl
    intro x hx
    exact h.mem_commandCodes x (hsplit ▸ (commandBytes_prefix_append _ _).subset hx)

/-! The actions of the rules, from the frame up. -/

@[simp] theorem ownCommands_nil : OwnCommands [] := .nil

@[simp] theorem ownCommands_cons_iff {a : Act} {acts : List Act} (ha : a ≠ .dc .cmd) :
    OwnCommands (a :: acts) ↔ OwnCommands acts := by
  refine ⟨fun h => ?_, .other ha⟩
  cases h with
  | command => exact absurd rfl ha
  | other _ h => exact h

theorem ownCommands_command_iff {c : Byte} {acts : List Act} (hc : c ∈ commandCodes) :
    OwnCommands (.dc .cmd :: .xfer [c] :: acts) ↔ OwnCommands acts := by
  refine ⟨fun h => ?_, .command hc⟩
  cases h with
  | command _ h => exact h
  | other ha _ => exact absurd rfl ha

@[simp] theorem ownCommands_append_iff {a b : List Act} (ha : OwnCommands a) : OwnCommands (a ++ b) ↔ OwnCommands b := by
  induction ha with
  | nil => rfl
  | command hc _ ih => exact (ownCommands_command_iff hc).trans ih
  | other ha _ ih => exact (ownCommands_cons_iff ha).trans ih

theorem ownCommands_flatMap {α : Type} {xs : List α} {f : α → List Act} (h : ∀ x, OwnCommands (f x)) :
    OwnCommands (xs.flatMap f) := by
  induction xs with
  | nil => exact .nil
  | cons x rest ih => exact (ownCommands_append_iff (h x)).2 ih

section
variable (d : Device) (p : Params)

@[simp] theorem ownCommands_csActs (l : Level) : OwnCommands (csActs d l) := by
  unfold csActs
  split <;> simp

@[simp] theorem ownCommands_ghostActs (cmd : Option Byte) : OwnCommands (ghostActs cmd) := by
  cases cmd with
  | none => exact .nil
  | some c => cases hs : sleepAfter c <;> cases hg : displayAfter c <;> simp [ghostActs, hs, hg]

/-- A frame, whose command byte, if it has one, is one of the twelve. -/
theorem ownCommands_frameActs {cmd : Option Byte} (hc : ∀ c ∈ cmd, c ∈ commandCodes) (data : Bytes) :
    OwnCommands (frameActs d cmd data) := by
  have hcmd : OwnCommands (cmdActs cmd) := by
    cases cmd with
    | none => exact .nil
    | some c => exact .command (hc c rfl) .nil
  have hdata : OwnCommands (dataActs data) := by cases data <;> simp [dataActs]
  simp [frameActs, hcmd, hdata]

theorem ownCommands_sendActs {c : Byte} (hc : c ∈ commandCodes) (data : Bytes) :
    OwnCommands (sendActs d (some c) data) :=
  (ownCommands_append_iff (ownCommands_frameActs d (by simpa using hc) data)).2 (ownCommands_ghostActs _)

@[simp] theorem ownCommands_swresetActs : OwnCommands (swresetActs d) := ownCommands_sendActs d (by decide) _
@[simp] theorem ownCommands_slpinActs : OwnCommands (slpinActs d) := ownCommands_sendActs d (by decide) _
@[simp] theorem ownCommands_slpoutActs : OwnCommands (slpoutActs d) := ownCommands_sendActs d (by decide) _
@[simp] theorem ownCommands_noronActs : OwnCommands (noronActs d) := ownCommands_sendActs d (by decide) _
@[simp] theorem ownCommands_invoffActs : OwnCommands (invoffActs d) := ownCommands_sendActs d (by decide) _
@[simp] theorem ownCommands_invonActs : OwnCommands (invonActs d) := ownCommands_sendActs d (by decide) _
@[simp] theorem ownCommands_disponActs : OwnCommands (disponActs d) := ownCommands_sendActs d (by decide) _
@[simp] theorem ownCommands_casetActs (xs xe : Half) : OwnCommands (casetActs d xs xe) :=
  ownCommands_sendActs d (by decide) _
@[simp] theorem ownCommands_rasetActs (ys ye : Half) : OwnCommands (rasetActs d ys ye) :=
  ownCommands_sendActs d (by decide) _
@[simp] theorem ownCommands_ramwrActs : OwnCommands (ramwrActs d) := ownCommands_sendActs d (by decide) _
@[simp] theorem ownCommands_madctlActs (v : Byte) : OwnCommands (madctlActs d v) :=
  ownCommands_sendActs d (by decide) _
@[simp] theorem ownCommands_colmodActs (v : Byte) : OwnCommands (colmodActs d v) :=
  ownCommands_sendActs d (by decide) _

@[simp] theorem ownCommands_setwinActs (x0 y0 x1 y1 : Int) : OwnCommands (setwinActs d p x0 y0 x1 y1) := by
  unfold setwinActs
  split <;> simp

/-- A stream sets data mode only, under either framing (43_pixel_streamer.md R181). -/
@[simp] theorem ownCommands_streamActs (src : StreamSource) (bytes : Bytes) :
    OwnCommands (streamActs d p src bytes) := by
  have hdata : ∀ ts, OwnCommands (streamDataActs ts) := by
    intro ts
    cases ts with
    | nil => exact .nil
    | cons t rest => exact .other (by decide) (ownCommands_flatMap fun u => by simp)
  unfold streamActs
  split
  · simp [hdata]
  · exact ownCommands_flatMap fun u => .other (by simp) (ownCommands_frameActs d (by simp) u.2)

@[simp] theorem ownCommands_sfillActs (color : Half) (count : Int) : OwnCommands (sfillActs d p color count) := by
  simp [sfillActs]

@[simp] theorem ownCommands_pixelActs (x y : Int) (color : Half) : OwnCommands (pixelActs d p x y color) := by
  simp [pixelActs]

@[simp] theorem ownCommands_hlineActs (x y len : Int) (color : Half) : OwnCommands (hlineActs d p x y len color) := by
  simp [hlineActs]

@[simp] theorem ownCommands_vlineActs (x y len : Int) (color : Half) : OwnCommands (vlineActs d p x y len color) := by
  simp [vlineActs]

@[simp] theorem ownCommands_lineActs (x0 y0 x1 y1 : Int) (color : Half) :
    OwnCommands (lineActs d p x0 y0 x1 y1 color) := by
  refine ownCommands_flatMap fun t => .other (by simp) ?_
  rcases t with ⟨r, _ | c⟩
  · exact .nil
  · cases c <;> simp [lineCallActs]

@[simp] theorem ownCommands_frectActs (x y w h : Int) (color : Half) : OwnCommands (frectActs d p x y w h color) := by
  simp [frectActs]

@[simp] theorem ownCommands_hresetActs : OwnCommands (hresetActs d) := by
  simp [hresetActs, panelResetActs]

@[simp] theorem ownCommands_sresetActs : OwnCommands (sresetActs d) := by
  simp [sresetActs, panelResetActs, ownCommands_frameActs d (cmd := some cmdSwreset) (by decide)]

@[simp] theorem ownCommands_backlightActs (l : Level) : OwnCommands (backlightActs d l) := by
  unfold backlightActs
  split <;> simp

@[simp] theorem ownCommands_rotateActs (n : Int) : OwnCommands (rotateActs d p n) := by
  unfold rotateActs
  split <;> simp

@[simp] theorem ownCommands_initActs : OwnCommands (initActs d p) := by
  have hrotate : OwnCommands (initRotateActs d p) := by
    unfold initRotateActs
    split <;> simp
  simp [initActs, hrotate]

end

/-- The actions of every instruction but a host's SEND. -/
theorem ownCommands_actsOf {p : Params} {d : Device} {i : Instr} {acts : List Act}
    (hs : ∀ cmd data, i ≠ .send cmd data) (ha : actsOf p d i = some acts) : OwnCommands acts := by
  cases i with
  | config | pack565 | expbmp | getrot | getdim => cases ha
  | send cmd data => exact absurd rfl (hs cmd data)
  | rotate n =>
    obtain ⟨-, rfl⟩ : d.rotCap = true ∧ rotateActs d p (sext16 n) = acts := by simpa [actsOf] using ha
    exact ownCommands_rotateActs d p _
  | sleep en => cases en <;> cases ha <;> simp
  | invert en => cases en <;> cases ha <;> simp
  | _ =>
    cases ha
    simp [blitActs, rectActs, fillActs]

/-- The events an instruction other than a host's SEND emits send command bytes of the twelve only. -/
theorem exec_commandBytes {i : Instr} {s t : State} (hs : ∀ cmd data, i ≠ .send cmd data) (ht : exec i s = .next t) :
    ∃ evs, t.trace = s.trace ++ evs ∧ ∀ b ∈ commandBytes evs, ∃ c ∈ commandCodes, b = [c] := by
  by_cases hc : ∃ f, i = .config f
  · obtain ⟨f, rfl⟩ := hc
    obtain ⟨_, _, hx⟩ := execConfig_eq f s
    obtain ⟨u, hu, -, -, htr, -⟩ := hx s rfl
    obtain rfl : u = t := Host.Outcome.next.inj (hu.symm.trans ht)
    exact ⟨[], by rw [htr, List.append_nil], fun b hb => nomatch hb⟩
  · obtain ⟨done, st, v, hends, hx⟩ := exec_eq_ended s fun f e => hc ⟨f, e⟩
    obtain rfl := Host.Outcome.next.inj ((hx s (.refl s)).symm.trans ht)
    obtain ⟨htr, -⟩ := completed_ended done st v s
    refine ⟨eventsOf done, htr, ?_⟩
    cases hends with
    | answers _ => exact fun b hb => nomatch hb
    | drives hd ha hp => exact (ownCommands_actsOf hs ha).performed hp

/-- Settles O56: the trace fixes the events, which are those of actions with commands of the twelve only. -/
theorem twelveCommands : Obligations.TwelveCommands := by
  intro i s t evs hs ht htr
  obtain ⟨evs', htr', hcodes⟩ := exec_commandBytes hs ht
  obtain rfl : evs' = evs := List.append_cancel_left (htr'.symm.trans htr)
  exact hcodes

end Sys2Proof
end

section
/-! EXPBMP (40_color_codec.md R132): the loop over the source bytes is the expansion row by row. -/

namespace Sys2Proof

open Machine

/-! One row. -/

/-- The `n` lowest bits of a byte, most significant first (R67). -/
def lowBits (b : Byte) : Nat → List Bool
  | 0 => []
  | n + 1 => b.getLsbD n :: lowBits b n

theorem bitsOf_eq_lowBits (b : Byte) : bitsOf b = lowBits b 8 := rfl

@[simp] theorem length_lowBits (b : Byte) (n : Nat) : (lowBits b n).length = n := by
  induction n with
  | zero => rfl
  | succ n ih => rw [lowBits, List.length_cons, ih]

@[simp] theorem length_bitsOf (b : Byte) : (bitsOf b).length = 8 := length_lowBits b 8

@[simp] theorem length_flatMap_bitsOf (src : Bytes) : (src.flatMap bitsOf).length = 8 * src.length := by
  simp [List.length_flatMap, Nat.mul_comm]

/-- The pairs EXPBMP writes for the bits: the colour bytes of `fg` or `bg`. -/
def bitPairs (fg bg : Half) (bits : List Bool) : Bytes := bits.flatMap fun bit => colorBytes (if bit then fg else bg)

@[simp] theorem bitPairs_nil (fg bg : Half) : bitPairs fg bg [] = [] := rfl

@[simp] theorem bitPairs_cons (fg bg : Half) (bit : Bool) (bits : List Bool) :
    bitPairs fg bg (bit :: bits) = colorBytes (if bit then fg else bg) ++ bitPairs fg bg bits := rfl

@[simp] theorem bitPairs_append (fg bg : Half) (a b : List Bool) :
    bitPairs fg bg (a ++ b) = bitPairs fg bg a ++ bitPairs fg bg b := List.flatMap_append

@[simp] theorem length_colorBytes (c : Half) : (colorBytes c).length = 2 := rfl

@[simp] theorem length_bitPairs (fg bg : Half) (bits : List Bool) : (bitPairs fg bg bits).length = 2 * bits.length := by
  induction bits with
  | nil => rfl
  | cons bit bits ih =>
    rw [bitPairs_cons, List.length_append, ih, List.length_cons, length_colorBytes]
    omega

/-- A byte's bits, as many as the row has room for: a full row discards the rest. -/
theorem expandByte_eq {width row : Nat} (fg bg : Half) (b : Byte) (n : Nat) (h : row < width) :
    expandByte width fg bg b n row =
      (bitPairs fg bg ((lowBits b n).take (width - row)), if row + n < width then row + n else 0) := by
  induction n generalizing row with
  | zero => simp [expandByte, lowBits, h]
  | succ n ih =>
    rw [expandByte, lowBits]
    dsimp only
    split
    · rename_i hfull
      rw [show width - row = 1 by omega, if_neg (show ¬row + (n + 1) < width by omega)]
      simp
    · rename_i hroom
      rw [ih (by omega), show width - row = width - (row + 1) + 1 by omega, List.take_succ_cons, bitPairs_cons,
        show row + (n + 1) = row + 1 + n by omega]

/-- From a row counter of `row` the loop fills the row from the bytes left of it, and goes on with a new row. -/
theorem expandBytes_row {width row : Nat} (fg bg : Half) (src : Bytes) (h : row < width) :
    expandBytes width fg bg src row =
      bitPairs fg bg (((src.take ((width - row + 7) / 8)).flatMap bitsOf).take (width - row)) ++
        expandBytes width fg bg (src.drop ((width - row + 7) / 8)) 0 := by
  induction src generalizing row with
  | nil => simp [expandBytes]
  | cons b rest ih =>
    rw [expandBytes, expandByte_eq fg bg b 8 h, ← bitsOf_eq_lowBits]
    by_cases hroom : row + 8 < width
    · rw [if_pos hroom, ih hroom, show (width - row + 7) / 8 = (width - (row + 8) + 7) / 8 + 1 by omega,
        List.take_succ_cons, List.drop_succ_cons, List.flatMap_cons, List.take_append, bitPairs_append, length_bitsOf,
        List.append_assoc, Nat.sub_add_eq]
    · rw [if_neg hroom, show (width - row + 7) / 8 = 1 by omega]
      simp

/-! Row by row. -/

/-- Induction over a byte string cut into rows of `n` bytes: what holds of the bytes after a row holds from that row on. -/
theorem rows_induction {motive : Bytes → Prop} {n : Nat} (hn : 0 < n) (nil : motive [])
    (row : ∀ src, src ≠ [] → motive (src.drop n) → motive src) (src : Bytes) : motive src := by
  induction hlen : src.length using Nat.strong_induction_on generalizing src with
  | h len ih =>
    by_cases hsrc : src = []
    · exact hsrc ▸ nil
    · have hpos := List.length_pos_iff.2 hsrc
      exact row src hsrc (ih _ (by rw [List.length_drop]; omega) _ rfl)

theorem be16Z_bit (fg bg : Half) (bit : Bool) :
    be16Z (if bit then fg.toNat else bg.toNat) = colorBytes (if bit then fg else bg) := by
  cases bit <;> exact (be16_eq_be16Z _).symm

theorem expandedRows_eq (width : Nat) (fg bg : Half) (src : Bytes) :
    expandedRows width fg bg src =
      (List.range ((src.length + (width + 7) / 8 - 1) / ((width + 7) / 8))).flatMap fun r =>
        bitPairs fg bg (bitmapRow width src r) := by
  simp only [expandedRows, bitPairs, be16Z_bit]

theorem expandedRows_nil {width : Nat} (hw : 0 < width) (fg bg : Half) : expandedRows width fg bg [] = [] := by
  have hrows : (([] : Bytes).length + (width + 7) / 8 - 1) / ((width + 7) / 8) = 0 :=
    Nat.div_eq_of_lt (by rw [List.length_nil]; omega)
  rw [expandedRows, hrows]
  rfl

theorem bitmapRow_succ (width : Nat) (src : Bytes) (r : Nat) :
    bitmapRow width src (r + 1) = bitmapRow width (src.drop ((width + 7) / 8)) r := by
  rw [bitmapRow, bitmapRow, List.drop_drop, Nat.succ_mul, Nat.add_comm (r * _)]

/-- The expansion of a bitmap is that of its first row and of the rows after it. -/
theorem expandedRows_row {width : Nat} (hw : 0 < width) (fg bg : Half) {src : Bytes} (hsrc : src ≠ []) :
    expandedRows width fg bg src =
      bitPairs fg bg (bitmapRow width src 0) ++ expandedRows width fg bg (src.drop ((width + 7) / 8)) := by
  have hrows : (src.length + (width + 7) / 8 - 1) / ((width + 7) / 8) =
      ((src.drop ((width + 7) / 8)).length + (width + 7) / 8 - 1) / ((width + 7) / 8) + 1 := by
    have hpos := List.length_pos_iff.2 hsrc
    have hbpr : 0 < (width + 7) / 8 := by omega
    rw [List.length_drop, ← Nat.add_div_right _ hbpr]
    by_cases hlast : src.length ≤ (width + 7) / 8
    · rw [Nat.div_eq_of_lt_le (k := 1), Nat.div_eq_of_lt_le (k := 1)] <;> omega
    · congr 1
      omega
  simp only [expandedRows_eq, hrows, List.range_succ_eq_map, List.flatMap_cons, List.flatMap_map, bitmapRow_succ]

/-- R132's loop writes the rows of the bitmap. -/
theorem expandBytes_eq_expandedRows {width : Nat} (hw : 0 < width) (fg bg : Half) (src : Bytes) :
    expandBytes width fg bg src 0 = expandedRows width fg bg src := by
  induction src using rows_induction (n := (width + 7) / 8) (by omega) with
  | nil => exact (expandedRows_nil hw fg bg).symm
  | row src hsrc ih =>
    rw [expandBytes_row fg bg src hw, expandedRows_row hw fg bg hsrc, Nat.sub_zero, ih]
    simp [bitmapRow]

/-! Its length. -/

/-- A row has `width` bits; a last row that is short has those of its bytes. -/
theorem length_bitmapRow_zero (width : Nat) (src : Bytes) :
    (bitmapRow width src 0).length = min width (8 * min ((width + 7) / 8) src.length) := by
  simp [bitmapRow, Nat.mul_comm]

/-- `need` of a bitmap of whole rows and a last short one, from the first row on. -/
theorem expansionNeed_row {width : Nat} (hw : 0 < width) (slen : Nat) :
    expansionNeed width slen =
      2 * min width (8 * min ((width + 7) / 8) slen) + expansionNeed width (slen - (width + 7) / 8) := by
  have hbpr : 0 < (width + 7) / 8 := by omega
  by_cases hshort : slen < (width + 7) / 8
  · rw [expansionNeed, expansionNeed, Nat.div_eq_of_lt hshort, Nat.mod_eq_of_lt hshort, Nat.sub_eq_zero_of_le hshort.le,
      Nat.zero_div, Nat.zero_mod]
    omega
  · have hle := Nat.le_of_not_lt hshort
    rw [expansionNeed, expansionNeed, Nat.div_eq_sub_div hbpr hle, Nat.mod_eq_sub_mod hle, Nat.succ_mul (_ / _)]
    omega

theorem length_expandedRows {width : Nat} (hw : 0 < width) (fg bg : Half) (src : Bytes) :
    (expandedRows width fg bg src).length = expansionNeed width src.length := by
  induction src using rows_induction (n := (width + 7) / 8) (by omega) with
  | nil => simp [expandedRows_nil hw, expansionNeed]
  | row src hsrc ih =>
    rw [expandedRows_row hw fg bg hsrc, List.length_append, length_bitPairs, length_bitmapRow_zero, ih,
      List.length_drop, ← expansionNeed_row hw]

/-- EXPBMP with a width and a room that R132 takes: the whole expansion, and nothing else changed. -/
theorem execExpbmp_of_room {width fg bg : Half} {olen : Quad} {src : Bytes} (s : State) (hw : 1 ≤ sext16 width)
    (hroom : expandNeed (sext16 width).toNat src.length ≤ olen.toNat) :
    exec (.expbmp width fg bg olen src) s =
      .next (recorded s .ok (.expanded (BitVec.ofNat 32 (expandBytes (sext16 width).toNat fg bg src 0).length)
        (expandBytes (sext16 width).toNat fg bg src 0))) := by
  change execExpbmp width fg bg olen src s = _
  rw [execExpbmp, if_neg (Int.not_lt.2 hw), if_neg (Nat.not_lt.2 hroom)]
  rfl

/-- Settles O14: the loop writes the rows, which have `need` bytes together. -/
theorem expandBitmap : Obligations.ExpandBitmap := by
  intro s width fg bg olen src hw hroom
  have hpos : 0 < width.toInt.toNat := by omega
  have hlen := length_expandedRows hpos fg bg src
  refine ⟨hlen, (execExpbmp_of_room s hw hroom).trans ?_⟩
  rw [sext16, expandBytes_eq_expandedRows hpos, hlen]

end Sys2Proof
end

section
/-! Fields and their bytes (30_encoding.md R100, R111): assembling a field and splitting it are inverse. -/

namespace Sys2Proof

@[simp] theorem be16_half (a b : Byte) : be16 (half a b) = [a, b] :=
  congrArg₂ (fun x y => [x, y]) BitVec.extractLsb'_append_eq_left BitVec.extractLsb'_append_eq_right

@[simp] theorem be32_quad (a b c d : Byte) : be32 (quad a b c d) = [a, b, c, d] := by
  have ha : (quad a b c d).extractLsb' 24 8 = a := by
    rw [quad, BitVec.extractLsb'_append_eq_of_le (by decide), BitVec.extractLsb'_append_eq_of_le (by decide),
      BitVec.extractLsb'_append_eq_left]
  have hb : (quad a b c d).extractLsb' 16 8 = b := by
    rw [quad, BitVec.extractLsb'_append_eq_of_le (by decide), BitVec.extractLsb'_append_eq_of_le (by decide),
      BitVec.extractLsb'_append_eq_right]
  have hc : (quad a b c d).extractLsb' 8 8 = c := by
    rw [quad, BitVec.extractLsb'_append_eq_of_le (by decide), BitVec.extractLsb'_append_eq_right]
  have hd : (quad a b c d).extractLsb' 0 8 = d := BitVec.extractLsb'_append_eq_right
  rw [be32, ha, hb, hc, hd]

@[simp] theorem quad_be32 (v : Quad) :
    quad (v.extractLsb' 24 8) (v.extractLsb' 16 8) (v.extractLsb' 8 8) (v.extractLsb' 0 8) = v := by
  rw [quad, BitVec.extractLsb'_append_extractLsb'_eq_extractLsb' (show 24 = 16 + 8 by rfl),
    BitVec.extractLsb'_append_extractLsb'_eq_extractLsb' (show 16 = 8 + 8 by rfl),
    BitVec.extractLsb'_append_extractLsb'_eq_extractLsb' (show 8 = 0 + 8 by rfl)]
  exact BitVec.extractLsb'_eq_self

/-- A byte after a field is the field's new low byte. -/
theorem toNat_append_byte {n : Nat} (v : BitVec n) (b : Byte) : (v ++ b).toNat = 256 * v.toNat + b.toNat := by
  rw [BitVec.toNat_append, ← Nat.shiftLeft_add_eq_or_of_lt b.isLt, Nat.shiftLeft_eq, Nat.mul_comm]

theorem toNat_half (a b : Byte) : (half a b).toNat = beValue [a, b] := by
  simp [half, beValue, toNat_append_byte]

theorem toNat_quad (a b c d : Byte) : (quad a b c d).toNat = beValue [a, b, c, d] := by
  simp [quad, beValue, toNat_append_byte]

/-- A signed field in two's complement: from half its range on, its value is less by the range. -/
theorem toInt_eq_ite {n : Nat} (v : BitVec (n + 1)) :
    v.toInt = if v.toNat < 2 ^ n then (v.toNat : Int) else (v.toNat : Int) - 2 ^ (n + 1) := by
  have hhalf : 2 * v.toNat < 2 ^ (n + 1) ↔ v.toNat < 2 ^ n := by
    rw [Nat.pow_succ]
    omega
  simp [BitVec.toInt_eq_toNat_cond, hhalf]

/-- Settles O7: a byte appended to a field is its new low byte, and a signed field is the value read in two's
complement. -/
theorem operandAssembly : Obligations.OperandAssembly :=
  ⟨fun a b => ⟨toNat_half a b, toNat_half a b ▸ toInt_eq_ite (half a b)⟩,
    fun a b c d => ⟨toNat_quad a b c d, toNat_quad a b c d ▸ toInt_eq_ite (quad a b c d)⟩⟩

end Sys2Proof
end

section
/-! The descriptor formats (30_encoding.md R101 to R108): the bytes each accepts and the instruction it reads from them
(`_eq_instr`), and that it refuses every other length (`_of_length`). -/

namespace Sys2Proof

/-! Formats without buffer. -/

theorem decodeN_eq_instr {i j : Instr} {rest : Bytes} : decodeN i rest = .instr j ↔ rest = [] ∧ i = j := by
  cases rest <;> simp [decodeN]

theorem decodeN_of_length {i : Instr} {rest : Bytes} (h : rest.length ≠ 0) : decodeN i rest = .rejected .badLength := by
  cases rest with
  | nil => exact absurd rfl h
  | cons => rfl

theorem decodeE_eq_instr {k : Bool → Instr} {rest : Bytes} {i : Instr} :
    decodeE k rest = .instr i ↔ ∃ en, rest = [enByte en] ∧ k en = i := by
  constructor
  · intro h
    unfold decodeE at h
    split at h
    · split_ifs at h with h0 h1
      · exact ⟨false, by rw [h0]; rfl, Decoded.instr.inj h⟩
      · exact ⟨true, by rw [h1]; rfl, Decoded.instr.inj h⟩
    · cases h
  · rintro ⟨en, rfl, rfl⟩
    cases en <;> rfl

theorem decodeE_of_length {k : Bool → Instr} {rest : Bytes} (h : rest.length ≠ 1) :
    decodeE k rest = .rejected .badLength := by
  unfold decodeE
  split
  · exact absurd rfl h
  · rfl

/-- R113: a boolean byte is 0 or 1. -/
theorem decodeE_of_reserved {k : Bool → Instr} {en : Byte} (h0 : en ≠ 0) (h1 : en ≠ 1) :
    decodeE k [en] = .rejected .reservedField := by
  rw [decodeE, if_neg h0, if_neg h1]

theorem decodeHalf_eq_instr {k : Half → Instr} {rest : Bytes} {i : Instr} :
    decodeHalf k rest = .instr i ↔ ∃ v, rest = be16 v ∧ k v = i := by
  constructor
  · intro h
    unfold decodeHalf at h
    split at h
    · exact ⟨_, (be16_half _ _).symm, Decoded.instr.inj h⟩
    · cases h
  · rintro ⟨v, rfl, rfl⟩
    simp [be16, decodeHalf, half_be16]

theorem decodeHalf_of_length {k : Half → Instr} {rest : Bytes} (h : rest.length ≠ 2) :
    decodeHalf k rest = .rejected .badLength := by
  unfold decodeHalf
  split
  · exact absurd rfl h
  · rfl

theorem decodeP3_eq_instr {k : Byte → Byte → Byte → Instr} {rest : Bytes} {i : Instr} :
    decodeP3 k rest = .instr i ↔ ∃ r g b, rest = [r, g, b] ∧ k r g b = i := by
  constructor
  · intro h
    unfold decodeP3 at h
    split at h
    · exact ⟨_, _, _, rfl, Decoded.instr.inj h⟩
    · cases h
  · rintro ⟨r, g, b, rfl, rfl⟩
    rfl

theorem decodeP3_of_length {k : Byte → Byte → Byte → Instr} {rest : Bytes} (h : rest.length ≠ 3) :
    decodeP3 k rest = .rejected .badLength := by
  unfold decodeP3
  split
  · exact absurd rfl h
  · rfl

theorem decodeXyc_eq_instr {k : Half → Half → Half → Instr} {rest : Bytes} {i : Instr} :
    decodeXyc k rest = .instr i ↔ ∃ x y c, rest = be16 x ++ be16 y ++ be16 c ∧ k x y c = i := by
  constructor
  · intro h
    unfold decodeXyc at h
    split at h
    · exact ⟨_, _, _, by simp, Decoded.instr.inj h⟩
    · cases h
  · rintro ⟨x, y, c, rfl, rfl⟩
    simp [be16, decodeXyc, half_be16]

theorem decodeXyc_of_length {k : Half → Half → Half → Instr} {rest : Bytes} (h : rest.length ≠ 6) :
    decodeXyc k rest = .rejected .badLength := by
  unfold decodeXyc
  split
  · exact absurd rfl h
  · rfl

theorem decodeHalves4_eq_instr {k : Half → Half → Half → Half → Instr} {rest : Bytes} {i : Instr} :
    decodeHalves4 k rest = .instr i ↔
      ∃ a b c d, rest = be16 a ++ be16 b ++ be16 c ++ be16 d ∧ k a b c d = i := by
  constructor
  · intro h
    unfold decodeHalves4 at h
    split at h
    · exact ⟨_, _, _, _, by simp, Decoded.instr.inj h⟩
    · cases h
  · rintro ⟨a, b, c, d, rfl, rfl⟩
    simp [be16, decodeHalves4, half_be16]

theorem decodeHalves4_of_length {k : Half → Half → Half → Half → Instr} {rest : Bytes} (h : rest.length ≠ 8) :
    decodeHalves4 k rest = .rejected .badLength := by
  unfold decodeHalves4
  split
  · exact absurd rfl h
  · rfl

theorem decodeHalves5_eq_instr {k : Half → Half → Half → Half → Half → Instr} {rest : Bytes} {i : Instr} :
    decodeHalves5 k rest = .instr i ↔
      ∃ a b c d e, rest = be16 a ++ be16 b ++ be16 c ++ be16 d ++ be16 e ∧ k a b c d e = i := by
  constructor
  · intro h
    unfold decodeHalves5 at h
    split at h
    · exact ⟨_, _, _, _, _, by simp, Decoded.instr.inj h⟩
    · cases h
  · rintro ⟨a, b, c, d, e, rfl, rfl⟩
    simp [be16, decodeHalves5, half_be16]

theorem decodeHalves5_of_length {k : Half → Half → Half → Half → Half → Instr} {rest : Bytes}
    (h : rest.length ≠ 10) : decodeHalves5 k rest = .rejected .badLength := by
  unfold decodeHalves5
  split
  · exact absurd rfl h
  · rfl

theorem decodeSf_eq_instr {rest : Bytes} {i : Instr} :
    decodeSf rest = .instr i ↔ ∃ color count, rest = be16 color ++ be32 count ∧ .sfill color count = i := by
  constructor
  · intro h
    unfold decodeSf at h
    split at h
    · exact ⟨_, _, by simp, Decoded.instr.inj h⟩
    · cases h
  · rintro ⟨color, count, rfl, rfl⟩
    simp [be16, be32, decodeSf, half_be16]

theorem decodeSf_of_length {rest : Bytes} (h : rest.length ≠ 6) : decodeSf rest = .rejected .badLength := by
  unfold decodeSf
  split
  · exact absurd rfl h
  · rfl

/-! Formats with a buffer: the 32-bit length field announces the buffer's length. -/

/-- A length field announces the length of a buffer that fits it, and no other length. -/
theorem length_eq_quad_iff {b : Bytes} {l3 l2 l1 l0 : Byte} :
    b.length = (quad l3 l2 l1 l0).toNat ↔ fitsLength b ∧ lengthField b = [l3, l2, l1, l0] := by
  constructor
  · intro h
    refine ⟨h.trans_lt (quad l3 l2 l1 l0).isLt, ?_⟩
    rw [lengthField, h, BitVec.ofNat_toNat, BitVec.setWidth_eq, be32_quad]
  · rintro ⟨hfits, hfield⟩
    obtain ⟨rfl, rfl, rfl, rfl⟩ : _ = l3 ∧ _ = l2 ∧ _ = l1 ∧ _ = l0 := by simpa [lengthField, be32] using hfield
    rw [quad_be32, BitVec.toNat_ofNat, Nat.mod_eq_of_lt hfits]

theorem decodeSd_eq_instr {rest : Bytes} {i : Instr} :
    decodeSd rest = .instr i ↔
      ∃ cmd data, fitsLength data ∧ encode (.send cmd data) = 0x20 :: rest ∧ .send cmd data = i := by
  constructor
  · intro h
    unfold decodeSd at h
    split at h
    · split_ifs at h with hlen hcmd hnone
      · obtain ⟨hfits, hfield⟩ := length_eq_quad_iff.1 (not_not.1 hlen)
        exact ⟨_, _, hfits, by simp [encode, hfield, hcmd], Decoded.instr.inj h⟩
      · obtain ⟨hfits, hfield⟩ := length_eq_quad_iff.1 (not_not.1 hlen)
        obtain ⟨hflags, hzero⟩ := hnone
        exact ⟨_, _, hfits, by simp [encode, hfield, hflags, hzero], Decoded.instr.inj h⟩
    · cases h
  · rintro ⟨cmd, data, hfits, henc, rfl⟩
    have hlen := length_eq_quad_iff.2 ⟨hfits, rfl⟩
    cases cmd <;>
    · obtain rfl := List.tail_eq_of_cons_eq henc
      exact (if_neg (not_not.2 hlen)).trans rfl

theorem decodeSd_of_length {rest : Bytes} (h : rest.length + 1 ≠ 7 + beValue ((rest.drop 2).take 4)) :
    decodeSd rest = .rejected .badLength := by
  unfold decodeSd
  split
  · refine if_pos fun hlen => h ?_
    simp [hlen, toNat_quad]
    omega
  · rfl

/-- R113: of the flags of a SEND only bit 0 may be set, and without it the command byte is 0. -/
theorem decodeSd_of_reserved {flags cmd l3 l2 l1 l0 : Byte} {data : Bytes}
    (hlen : data.length = (quad l3 l2 l1 l0).toNat) (hcmd : flags ≠ 1) (hnone : ¬(flags = 0 ∧ cmd = 0)) :
    decodeSd (flags :: cmd :: l3 :: l2 :: l1 :: l0 :: data) = .rejected .reservedField := by
  rw [decodeSd, if_neg (not_not.2 hlen), if_neg hcmd, if_neg hnone]

theorem decodeBl_eq_instr {rest : Bytes} {i : Instr} :
    decodeBl rest = .instr i ↔
      ∃ x y w h buf, fitsLength buf ∧
        rest = be16 x ++ be16 y ++ be16 w ++ be16 h ++ lengthField buf ++ buf ∧ .blit x y w h buf = i := by
  constructor
  · intro h
    unfold decodeBl at h
    split at h
    · split_ifs at h with hlen
      obtain ⟨hfits, hfield⟩ := length_eq_quad_iff.1 (not_not.1 hlen)
      exact ⟨_, _, _, _, _, hfits, by simp [hfield], Decoded.instr.inj h⟩
    · cases h
  · rintro ⟨x, y, w, h, buf, hfits, rfl, rfl⟩
    refine (if_neg (not_not.2 (length_eq_quad_iff.2 ⟨hfits, rfl⟩))).trans ?_
    simp [half_be16]

theorem decodeBl_of_length {rest : Bytes} (h : rest.length + 1 ≠ 13 + beValue ((rest.drop 8).take 4)) :
    decodeBl rest = .rejected .badLength := by
  unfold decodeBl
  split
  · refine if_pos fun hlen => h ?_
    simp [hlen, toNat_quad]
    omega
  · rfl

theorem decodeEb_eq_instr {rest : Bytes} {i : Instr} :
    decodeEb rest = .instr i ↔
      ∃ width fg bg olen src, fitsLength src ∧
        rest = be16 width ++ be16 fg ++ be16 bg ++ be32 olen ++ lengthField src ++ src ∧
        .expbmp width fg bg olen src = i := by
  constructor
  · intro h
    unfold decodeEb at h
    split at h
    · split_ifs at h with hlen
      obtain ⟨hfits, hfield⟩ := length_eq_quad_iff.1 (not_not.1 hlen)
      exact ⟨_, _, _, _, _, hfits, by simp [hfield], Decoded.instr.inj h⟩
    · cases h
  · rintro ⟨width, fg, bg, olen, src, hfits, rfl, rfl⟩
    refine (if_neg (not_not.2 (length_eq_quad_iff.2 ⟨hfits, rfl⟩))).trans ?_
    simp [half_be16]

theorem decodeEb_of_length {rest : Bytes} (h : rest.length + 1 ≠ 15 + beValue ((rest.drop 10).take 4)) :
    decodeEb rest = .rejected .badLength := by
  unfold decodeEb
  split
  · refine if_pos fun hlen => h ?_
    simp [hlen, toNat_quad]
    omega
  · rfl

/-! Format CF: the flags byte and the fields. -/

theorem getLsbD_ite (b : Bool) (m m' : Byte) (n : Nat) :
    (if b then m else m').getLsbD n = if b then m.getLsbD n else m'.getLsbD n :=
  apply_ite (BitVec.getLsbD · n) _ _ _

/-- The bits of the flags byte, from `RSTP` up; bits 6 and 7 are clear. -/
theorem getLsbD_configFlags (f : ConfigFields) :
    (configFlags f).getLsbD 0 = f.rstp ∧ (configFlags f).getLsbD 1 = f.dcp ∧ (configFlags f).getLsbD 2 = f.csp ∧
      (configFlags f).getLsbD 3 = f.blp ∧ (configFlags f).getLsbD 4 = f.orgp ∧ (configFlags f).getLsbD 5 = f.rotc ∧
      (configFlags f).getLsbD 6 = false ∧ (configFlags f).getLsbD 7 = false := by
  simp only [configFlags, BitVec.getLsbD_or, getLsbD_ite]
  simp

/-- The flags byte of the fields read from a descriptor is the descriptor's, if its must-be-zero bits are clear. -/
theorem configFlags_configFields {flags : Byte} (h6 : flags.getLsbD 6 = false) (h7 : flags.getLsbD 7 = false)
    (w1 w0 h1 h0 r1 r0 x1 x0 y1 y0 : Byte) :
    configFlags (configFields flags w1 w0 h1 h0 r1 r0 x1 x0 y1 y0) = flags := by
  obtain ⟨b0, b1, b2, b3, b4, b5, b6, b7⟩ :=
    getLsbD_configFlags (configFields flags w1 w0 h1 h0 r1 r0 x1 x0 y1 y0)
  refine BitVec.eq_of_getLsbD_eq fun n hn => ?_
  interval_cases n
  exacts [b0, b1, b2, b3, b4, b5, b6.trans h6.symm, b7.trans h7.symm]

/-- The fields read from the bytes of a CF descriptor are the ones it was made of. -/
theorem configFields_configFlags (f : ConfigFields) :
    configFields (configFlags f) (f.width.extractLsb' 8 8) (f.width.extractLsb' 0 8) (f.height.extractLsb' 8 8)
      (f.height.extractLsb' 0 8) (f.rot.extractLsb' 8 8) (f.rot.extractLsb' 0 8) (f.xorg.extractLsb' 8 8)
      (f.xorg.extractLsb' 0 8) (f.yorg.extractLsb' 8 8) (f.yorg.extractLsb' 0 8) = f := by
  obtain ⟨b0, b1, b2, b3, b4, b5, -, -⟩ := getLsbD_configFlags f
  simp only [configFields, b0, b1, b2, b3, b4, b5, half_be16]

/-- A byte whose bits 6 and 7 are clear is below 64. -/
theorem toNat_lt_64_of_bits_clear {b : Byte} (h6 : b.getLsbD 6 = false) (h7 : b.getLsbD 7 = false) :
    b.toNat < 64 := by
  refine Nat.lt_pow_two_of_testBit (n := 6) _ fun n hn => ?_
  rw [BitVec.testBit_toNat]
  obtain rfl | rfl | hge : n = 6 ∨ n = 7 ∨ 8 ≤ n := by omega
  · exact h6
  · exact h7
  · exact BitVec.getLsbD_of_ge b n hge

theorem decodeCf_eq_instr {rest : Bytes} {i : Instr} :
    decodeCf rest = .instr i ↔ ∃ f : ConfigFields, f.WellFormed ∧
      rest = [configFlags f] ++ be16 f.width ++ be16 f.height ++ be16 f.rot ++ be16 f.xorg ++ be16 f.yorg ∧
      .config f = i := by
  constructor
  · intro h
    unfold decodeCf at h
    split at h
    · split_ifs at h with hfields
      obtain ⟨h6, h7, hwf⟩ := hfields
      refine ⟨_, hwf, ?_, Decoded.instr.inj h⟩
      rw [configFlags_configFields h6 h7]
      simp [configFields]
    · cases h
  · rintro ⟨f, hwf, rfl, rfl⟩
    obtain ⟨-, -, -, -, -, -, h6, h7⟩ := getLsbD_configFlags f
    have hf := configFields_configFlags f
    exact (if_pos ⟨h6, h7, hf.symm ▸ hwf⟩).trans (congrArg (Decoded.instr ∘ Instr.config) hf)

theorem decodeCf_of_length {rest : Bytes} (h : rest.length ≠ 11) : decodeCf rest = .rejected .badLength := by
  unfold decodeCf
  split
  · exact absurd rfl h
  · rfl

theorem half_eq_zero_iff {a b : Byte} : half a b = 0 ↔ a = 0 ∧ b = 0 := by
  refine ⟨fun h => ?_, fun ⟨ha, hb⟩ => by rw [ha, hb]; rfl⟩
  simpa [be16] using (be16_half a b).symm.trans (congrArg be16 h)

/-- R113 for format CF: the two flag bits above `ROTC`, and the fields that `ROTC` and `ORGP` announce. -/
theorem decodeCf_of_reserved {flags w1 w0 h1 h0 r1 r0 x1 x0 y1 y0 : Byte}
    (h : 64 ≤ flags.toNat ∨ (flags.getLsbD 5 = false ∧ (r1 ≠ 0 ∨ r0 ≠ 0)) ∨
      (flags.getLsbD 4 = false ∧ (x1 ≠ 0 ∨ x0 ≠ 0 ∨ y1 ≠ 0 ∨ y0 ≠ 0))) :
    decodeCf [flags, w1, w0, h1, h0, r1, r0, x1, x0, y1, y0] = .rejected .reservedField := by
  refine if_neg fun ⟨h6, h7, hrot, horg⟩ => ?_
  rcases h with hflags | ⟨hrotc, hr⟩ | ⟨horgp, ho⟩
  · exact absurd (toNat_lt_64_of_bits_clear h6 h7) (Nat.not_lt.2 hflags)
  · obtain ⟨hr1, hr0⟩ := half_eq_zero_iff.1 (hrot hrotc)
    exact hr.elim (· hr1) (· hr0)
  · obtain ⟨hx, hy⟩ := horg horgp
    obtain ⟨hx1, hx0⟩ := half_eq_zero_iff.1 hx
    obtain ⟨hy1, hy0⟩ := half_eq_zero_iff.1 hy
    simp [hx1, hx0, hy1, hy0] at ho

end Sys2Proof
end

section
/-! The request decoder (30_encoding.md R110 to R115). -/

namespace Sys2Proof

/-! The opcode table. -/

theorem decodeBody_of_reserved {op : Byte} (hop : op ∉ requestOpcodes) (rest : Bytes) :
    decodeBody op rest = .rejected .reservedOpcode := by
  simp only [requestOpcodes, List.mem_cons, List.not_mem_nil, or_false, not_or] at hop
  simp only [decodeBody, hop, ↓reduceIte]

/-- Settles O4: no opcode of the table is the descriptor's. -/
theorem reservedOpcodes : Obligations.ReservedOpcodes :=
  ⟨rfl, fun _ rest hop => decodeBody_of_reserved hop rest⟩

theorem formatOf_of_reserved {op : Byte} (hop : op ∉ requestOpcodes) : formatOf op = none := by
  simp only [requestOpcodes, List.mem_cons, List.not_mem_nil, or_false, not_or] at hop
  simp only [formatOf, hop, ↓reduceIte]

/-- The byte string is the descriptor of the instruction, a well-formed request (R115). -/
def IsDescriptor (i : Instr) (b : Bytes) : Prop := i.isRequest = true ∧ i.WellFormed ∧ encode i = b

/-- The decoder of a format on what follows an opcode `op` of that format, with the descriptors it reads (R110). -/
inductive DecodesBy : Byte → Format → (Bytes → Decoded) → Prop
  | n {op i} (h : IsDescriptor i [op]) : DecodesBy op .n (decodeN i)
  | e {op k} (h : ∀ en, IsDescriptor (k en) [op, enByte en]) : DecodesBy op .e (decodeE k)
  | c {op k} (h : ∀ v, IsDescriptor (k v) (op :: be16 v)) : DecodesBy op .c (decodeHalf k)
  | rn {op k} (h : ∀ v, IsDescriptor (k v) (op :: be16 v)) : DecodesBy op .rn (decodeHalf k)
  | p3 {op k} (h : ∀ r g b, IsDescriptor (k r g b) [op, r, g, b]) : DecodesBy op .p3 (decodeP3 k)
  | xyc {op k} (h : ∀ x y c, IsDescriptor (k x y c) (op :: (be16 x ++ be16 y ++ be16 c))) :
      DecodesBy op .xyc (decodeXyc k)
  | xylc {op k} (h : ∀ x y l c, IsDescriptor (k x y l c) (op :: (be16 x ++ be16 y ++ be16 l ++ be16 c))) :
      DecodesBy op .xylc (decodeHalves4 k)
  | w {op k} (h : ∀ a b c d, IsDescriptor (k a b c d) (op :: (be16 a ++ be16 b ++ be16 c ++ be16 d))) :
      DecodesBy op .w (decodeHalves4 k)
  | q4c {op k}
      (h : ∀ a b c d e, IsDescriptor (k a b c d e) (op :: (be16 a ++ be16 b ++ be16 c ++ be16 d ++ be16 e))) :
      DecodesBy op .q4c (decodeHalves5 k)
  | sf : DecodesBy 0x40 .sf decodeSf
  | sd : DecodesBy 0x20 .sd decodeSd
  | bl : DecodesBy 0x41 .bl decodeBl
  | eb : DecodesBy 0x11 .eb decodeEb
  | cf : DecodesBy 0x01 .cf decodeCf

/-- R110 row by row: each opcode of the table has a format, and is decoded by it. -/
theorem decodesBy_of_mem :
    ∀ op ∈ requestOpcodes, ∃ f, formatOf op = some f ∧ DecodesBy op f (decodeBody op) := by
  simp only [requestOpcodes, List.forall_mem_cons]
  exact ⟨⟨_, rfl, .cf⟩,
    ⟨_, rfl, .p3 fun _ _ _ => ⟨rfl, rfl, rfl⟩⟩,
    ⟨_, rfl, .eb⟩,
    ⟨_, rfl, .sd⟩,
    ⟨_, rfl, .w fun _ _ _ _ => ⟨rfl, rfl, rfl⟩⟩,
    ⟨_, rfl, .sf⟩,
    ⟨_, rfl, .bl⟩,
    ⟨_, rfl, .xyc fun _ _ _ => ⟨rfl, rfl, rfl⟩⟩,
    ⟨_, rfl, .xylc fun _ _ _ _ => ⟨rfl, rfl, rfl⟩⟩,
    ⟨_, rfl, .xylc fun _ _ _ _ => ⟨rfl, rfl, rfl⟩⟩,
    ⟨_, rfl, .q4c fun _ _ _ _ _ => ⟨rfl, rfl, rfl⟩⟩,
    ⟨_, rfl, .q4c fun _ _ _ _ _ => ⟨rfl, rfl, rfl⟩⟩,
    ⟨_, rfl, .q4c fun _ _ _ _ _ => ⟨rfl, rfl, rfl⟩⟩,
    ⟨_, rfl, .c fun _ => ⟨rfl, rfl, rfl⟩⟩,
    ⟨_, rfl, .n ⟨rfl, rfl, rfl⟩⟩,
    ⟨_, rfl, .n ⟨rfl, rfl, rfl⟩⟩,
    ⟨_, rfl, .n ⟨rfl, rfl, rfl⟩⟩,
    ⟨_, rfl, .e fun _ => ⟨rfl, rfl, rfl⟩⟩,
    ⟨_, rfl, .e fun _ => ⟨rfl, rfl, rfl⟩⟩,
    ⟨_, rfl, .n ⟨rfl, rfl, rfl⟩⟩,
    ⟨_, rfl, .n ⟨rfl, rfl, rfl⟩⟩,
    ⟨_, rfl, .rn fun _ => ⟨rfl, rfl, rfl⟩⟩,
    ⟨_, rfl, .n ⟨rfl, rfl, rfl⟩⟩,
    ⟨_, rfl, .n ⟨rfl, rfl, rfl⟩⟩,
    nofun⟩

/-- An opcode that has a format is decoded by it. -/
theorem decodesBy_of_formatOf {op : Byte} {f : Format} (hf : formatOf op = some f) : DecodesBy op f (decodeBody op) := by
  have hmem : op ∈ requestOpcodes := by
    by_contra hop
    simp [formatOf_of_reserved hop] at hf
  obtain ⟨g, hg, hd⟩ := decodesBy_of_mem op hmem
  obtain rfl : g = f := Option.some.inj (hg.symm.trans hf)
  exact hd

/-! O2: decode and encode. -/

/-- What a format's decoder reads, it reads from the descriptor of a well-formed request. -/
theorem DecodesBy.isDescriptor {op : Byte} {f : Format} {d : Bytes → Decoded} (hd : DecodesBy op f d) {rest : Bytes}
    {i : Instr} (hi : d rest = .instr i) : IsDescriptor i (op :: rest) := by
  cases hd with
  | n h =>
    obtain ⟨rfl, rfl⟩ := decodeN_eq_instr.1 hi
    exact h
  | e h =>
    obtain ⟨en, rfl, rfl⟩ := decodeE_eq_instr.1 hi
    exact h en
  | c h | rn h =>
    obtain ⟨v, rfl, rfl⟩ := decodeHalf_eq_instr.1 hi
    exact h v
  | p3 h =>
    obtain ⟨r, g, b, rfl, rfl⟩ := decodeP3_eq_instr.1 hi
    exact h r g b
  | xyc h =>
    obtain ⟨x, y, c, rfl, rfl⟩ := decodeXyc_eq_instr.1 hi
    exact h x y c
  | xylc h | w h =>
    obtain ⟨a, b, c, d, rfl, rfl⟩ := decodeHalves4_eq_instr.1 hi
    exact h a b c d
  | q4c h =>
    obtain ⟨a, b, c, d, e, rfl, rfl⟩ := decodeHalves5_eq_instr.1 hi
    exact h a b c d e
  | sf =>
    obtain ⟨color, count, rfl, rfl⟩ := decodeSf_eq_instr.1 hi
    exact ⟨rfl, rfl, rfl⟩
  | sd =>
    obtain ⟨cmd, data, hfits, henc, rfl⟩ := decodeSd_eq_instr.1 hi
    exact ⟨rfl, decide_eq_true hfits, henc⟩
  | bl =>
    obtain ⟨x, y, w, h, buf, hfits, rfl, rfl⟩ := decodeBl_eq_instr.1 hi
    exact ⟨rfl, decide_eq_true hfits, rfl⟩
  | eb =>
    obtain ⟨width, fg, bg, olen, src, hfits, rfl, rfl⟩ := decodeEb_eq_instr.1 hi
    exact ⟨rfl, decide_eq_true hfits, rfl⟩
  | cf =>
    obtain ⟨f, hwf, rfl, rfl⟩ := decodeCf_eq_instr.1 hi
    exact ⟨rfl, decide_eq_true hwf, rfl⟩

theorem isDescriptor_of_decode {b : Bytes} {i : Instr} (h : decode b = .instr i) : IsDescriptor i b := by
  cases b with
  | nil => cases h
  | cons op rest =>
    have hmem : op ∈ requestOpcodes := by
      by_contra hop
      cases (decodeBody_of_reserved hop rest).symm.trans h
    obtain ⟨f, -, hd⟩ := decodesBy_of_mem op hmem
    exact hd.isDescriptor h

/-- Every well-formed request decodes from its descriptor, by the decoder of its opcode's format. -/
theorem decode_encode {i : Instr} (hreq : i.isRequest = true) (hwf : i.WellFormed) : decode (encode i) = .instr i := by
  cases i with
  | config f => exact decodeCf_eq_instr.2 ⟨f, of_decide_eq_true hwf, rfl, rfl⟩
  | pack565 | hreset | sreset | init | blon | bloff | getrot | getdim => rfl
  | expbmp width fg bg olen src => exact decodeEb_eq_instr.2 ⟨_, _, _, _, _, of_decide_eq_true hwf, rfl, rfl⟩
  | send cmd data =>
    obtain ⟨rest, henc⟩ : ∃ rest, encode (.send cmd data) = 0x20 :: rest := by cases cmd <;> exact ⟨_, rfl⟩
    rw [henc]
    exact decodeSd_eq_instr.2 ⟨_, _, of_decide_eq_true hwf, henc, rfl⟩
  | sfill color count => exact decodeSf_eq_instr.2 ⟨_, _, rfl, rfl⟩
  | blit x y w h buf => exact decodeBl_eq_instr.2 ⟨_, _, _, _, _, of_decide_eq_true hwf, rfl, rfl⟩
  | pixel x y color => exact decodeXyc_eq_instr.2 ⟨_, _, _, rfl, rfl⟩
  | setwin | hline | vline => exact decodeHalves4_eq_instr.2 ⟨_, _, _, _, rfl, rfl⟩
  | line | rect | frect => exact decodeHalves5_eq_instr.2 ⟨_, _, _, _, _, rfl, rfl⟩
  | fill | rotate => exact decodeHalf_eq_instr.2 ⟨_, rfl, rfl⟩
  | sleep | invert => exact decodeE_eq_instr.2 ⟨_, rfl, rfl⟩
  | _ => cases hreq

/-- Settles O2: each format's decoder reads the descriptors of its requests, and nothing else. -/
theorem descriptorRoundTrip : Obligations.DescriptorRoundTrip :=
  ⟨fun _ hreq hwf => decode_encode hreq hwf, fun _ _ h => isDescriptor_of_decode h⟩

/-! O5: the length. -/

/-- The length a descriptor of the format must have, whose bytes after the opcode are `rest` (R114): in a buffer format
the length field, the last four of the fixed bytes, adds to it (R100). -/
def Format.descriptorLength (f : Format) (rest : Bytes) : Nat :=
  match f with
  | .sd | .bl | .eb => f.fixedLength + beValue ((rest.drop (f.fixedLength - 5)).take 4)
  | _ => f.fixedLength

theorem Format.descriptorLength_of_fixed {f : Format} (hsd : f ≠ .sd) (hbl : f ≠ .bl) (heb : f ≠ .eb) {rest : Bytes} :
    f.descriptorLength rest = f.fixedLength := by
  cases f with
  | sd => exact absurd rfl hsd
  | bl => exact absurd rfl hbl
  | eb => exact absurd rfl heb
  | _ => rfl

theorem Format.fixedLength_le_descriptorLength (f : Format) (rest : Bytes) :
    f.fixedLength ≤ f.descriptorLength rest := by
  cases f with
  | sd | bl | eb => exact Nat.le_add_right _ _
  | _ => exact Nat.le_refl _

/-- A format's decoder rejects every other length. -/
theorem DecodesBy.badLength {op : Byte} {f : Format} {d : Bytes → Decoded} (hd : DecodesBy op f d) {rest : Bytes}
    (h : rest.length + 1 ≠ f.descriptorLength rest) : d rest = .rejected .badLength := by
  cases hd with
  | n => exact decodeN_of_length (ne_of_apply_ne Nat.succ h)
  | e => exact decodeE_of_length (ne_of_apply_ne Nat.succ h)
  | c | rn => exact decodeHalf_of_length (ne_of_apply_ne Nat.succ h)
  | p3 => exact decodeP3_of_length (ne_of_apply_ne Nat.succ h)
  | xyc => exact decodeXyc_of_length (ne_of_apply_ne Nat.succ h)
  | xylc | w => exact decodeHalves4_of_length (ne_of_apply_ne Nat.succ h)
  | q4c => exact decodeHalves5_of_length (ne_of_apply_ne Nat.succ h)
  | sf => exact decodeSf_of_length (ne_of_apply_ne Nat.succ h)
  | sd => exact decodeSd_of_length h
  | bl => exact decodeBl_of_length h
  | eb => exact decodeEb_of_length h
  | cf => exact decodeCf_of_length (ne_of_apply_ne Nat.succ h)

/-- Settles O5: the opcode is decoded by its format, which rejects every length but the descriptor's. -/
theorem descriptorLength : Obligations.DescriptorLength := by
  intro op rest f hf h
  refine (decodesBy_of_formatOf hf).badLength ?_
  rcases h with ⟨hsd, hbl, heb, hne⟩ | ⟨hbuffer, hcut | hne⟩
  · rwa [Format.descriptorLength_of_fixed hsd hbl heb]
  · exact (hcut.trans_le (f.fixedLength_le_descriptorLength rest)).ne
  · rcases hbuffer with rfl | rfl | rfl <;> exact hne

/-! O6: the reserved fields. -/

/-- Settles O6: formats E, SD and CF reject a reserved value in a descriptor of the right length. -/
theorem reservedFields : Obligations.ReservedFields := by
  refine ⟨fun en h0 h1 => ⟨decodeE_of_reserved h0 h1, decodeE_of_reserved h0 h1⟩, ?_, ?_⟩
  · intro flags cmd l3 l2 l1 l0 data hlen hreserved
    have hcmd : flags ≠ 1 := by
      rintro rfl
      simp at hreserved
    have hnone : ¬(flags = 0 ∧ cmd = 0) := by
      rintro ⟨rfl, rfl⟩
      simp at hreserved
    exact decodeSd_of_reserved (hlen.trans (toNat_quad l3 l2 l1 l0).symm) hcmd hnone
  · intro flags w1 w0 h1 h0 r1 r0 x1 x0 y1 y0 hreserved
    exact decodeCf_of_reserved hreserved

end Sys2Proof
end

section
/-! The wire command frames (30_encoding.md R91 to R97). -/

namespace Sys2Proof

theorem decodeBare_eq_instr {i j : Instr} {data : Bytes} : decodeBare i data = .instr j ↔ data = [] ∧ i = j := by
  cases data <;> simp [decodeBare]

theorem decodeOne_eq_instr {k : Byte → Instr} {data : Bytes} {i : Instr} :
    decodeOne k data = .instr i ↔ ∃ v, data = [v] ∧ k v = i := by
  constructor
  · intro h
    unfold decodeOne at h
    split at h
    · exact ⟨_, rfl, Decoded.instr.inj h⟩
    · cases h
  · rintro ⟨v, rfl, rfl⟩
    rfl

theorem decodeBounds_eq_instr {k : Half → Half → Instr} {data : Bytes} {i : Instr} :
    decodeBounds k data = .instr i ↔ ∃ s e, data = be16 s ++ be16 e ∧ k s e = i := by
  constructor
  · intro h
    unfold decodeBounds at h
    split at h
    · exact ⟨_, _, by simp, Decoded.instr.inj h⟩
    · cases h
  · rintro ⟨s, e, rfl, rfl⟩
    simp [be16, decodeBounds, half_be16]

/-- Each of the twelve frames decodes from its bytes. -/
theorem decodeFrame_encode {i : Instr} (hframe : i.isRequest = false) : decodeFrame (encode i) = .instr i := by
  cases i with
  | swreset | slpin | slpout | noron | invoff | invon | dispon | ramwr | madctl | colmod => rfl
  | caset | raset => exact decodeBounds_eq_instr.2 ⟨_, _, rfl, rfl⟩
  | _ => cases hframe

/-- The bytes of a frame are the command byte and the data bytes of R91. -/
theorem wireFrame_eq_encode {i : Instr} (hframe : i.isRequest = false) :
    wireFrame i = (encode i).head?.map (·, (encode i).tail) := by
  cases i with
  | swreset | slpin | slpout | noron | invoff | invon | dispon | ramwr | madctl | colmod => rfl
  | caset s e | raset s e =>
    change _ = some (_, be16 s ++ be16 e)
    rw [be16_eq_be16Z, be16_eq_be16Z]
    rfl
  | _ => cases hframe

/-- The byte string is the wire frame of the instruction (R91). -/
def IsFrame (i : Instr) (b : Bytes) : Prop := i.isRequest = false ∧ encode i = b

theorem isFrame_of_decodeBare {code : Byte} {i j : Instr} {data : Bytes} (hf : IsFrame i [code])
    (h : decodeBare i data = .instr j) : IsFrame j (code :: data) := by
  obtain ⟨rfl, rfl⟩ := decodeBare_eq_instr.1 h
  exact hf

theorem isFrame_of_decodeOne {code : Byte} {k : Byte → Instr} {data : Bytes} {i : Instr}
    (hf : ∀ v, IsFrame (k v) [code, v]) (h : decodeOne k data = .instr i) : IsFrame i (code :: data) := by
  obtain ⟨v, rfl, rfl⟩ := decodeOne_eq_instr.1 h
  exact hf v

theorem isFrame_of_decodeBounds {code : Byte} {k : Half → Half → Instr} {data : Bytes} {i : Instr}
    (hf : ∀ s e, IsFrame (k s e) (code :: (be16 s ++ be16 e))) (h : decodeBounds k data = .instr i) :
    IsFrame i (code :: data) := by
  obtain ⟨s, e, rfl, rfl⟩ := decodeBounds_eq_instr.1 h
  exact hf s e

theorem decodeFrame_of_not_mem {code : Byte} (hcode : code ∉ commandCodes) (data : Bytes) :
    decodeFrame (code :: data) = .rejected .notAFrame := by
  simp only [commandCodes, List.mem_cons, List.not_mem_nil, or_false, not_or] at hcode
  simp only [decodeFrame, cmdSwreset, cmdSlpin, cmdSlpout, cmdNoron, cmdInvoff, cmdInvon, cmdDispon, cmdCaset, cmdRaset,
    cmdRamwr, cmdMadctl, cmdColmod, hcode, ↓reduceIte]

/-- R91 code by code: what is decoded from a command code is a frame with that code. -/
theorem isFrame_of_mem :
    ∀ code ∈ commandCodes, ∀ data i, decodeFrame (code :: data) = .instr i → IsFrame i (code :: data) := by
  simp only [commandCodes, List.forall_mem_cons]
  exact ⟨fun _ _ => isFrame_of_decodeBare (i := .swreset) ⟨rfl, rfl⟩,
    fun _ _ => isFrame_of_decodeBare (i := .slpin) ⟨rfl, rfl⟩,
    fun _ _ => isFrame_of_decodeBare (i := .slpout) ⟨rfl, rfl⟩,
    fun _ _ => isFrame_of_decodeBare (i := .noron) ⟨rfl, rfl⟩,
    fun _ _ => isFrame_of_decodeBare (i := .invoff) ⟨rfl, rfl⟩,
    fun _ _ => isFrame_of_decodeBare (i := .invon) ⟨rfl, rfl⟩,
    fun _ _ => isFrame_of_decodeBare (i := .dispon) ⟨rfl, rfl⟩,
    fun _ _ => isFrame_of_decodeBounds (k := .caset) fun _ _ => ⟨rfl, rfl⟩,
    fun _ _ => isFrame_of_decodeBounds (k := .raset) fun _ _ => ⟨rfl, rfl⟩,
    fun _ _ => isFrame_of_decodeBare (i := .ramwr) ⟨rfl, rfl⟩,
    fun _ _ => isFrame_of_decodeOne (k := .madctl) fun _ => ⟨rfl, rfl⟩,
    fun _ _ => isFrame_of_decodeOne (k := .colmod) fun _ => ⟨rfl, rfl⟩,
    nofun⟩

theorem isFrame_of_decodeFrame {b : Bytes} {i : Instr} (h : decodeFrame b = .instr i) : IsFrame i b := by
  cases b with
  | nil => cases h
  | cons code data =>
    refine isFrame_of_mem code ?_ data i h
    by_contra hcode
    cases (decodeFrame_of_not_mem hcode data).symm.trans h

/-- Settles O3: the decoder of each command code reads the bytes of its frame, and nothing else. -/
theorem frameRoundTrip : Obligations.FrameRoundTrip :=
  ⟨fun _ hframe => ⟨decodeFrame_encode hframe, wireFrame_eq_encode hframe⟩, fun _ _ h => isFrame_of_decodeFrame h⟩

end Sys2Proof
end

section
/-! PACK565 (40_color_codec.md R130): masking a byte and shifting it cuts a field out, and the fields stand side by side. -/

namespace Sys2Proof

open Machine

/-- A contiguous mask keeps a field of the word, at its place. -/
theorem toNat_and_mask {w : Nat} (v : BitVec w) (start len : Nat) :
    v.toNat &&& ((2 ^ len - 1) <<< start) = (v.extractLsb' start len).toNat <<< start := by
  refine Nat.eq_of_testBit_eq fun n => ?_
  rw [Nat.testBit_and, Nat.testBit_shiftLeft, Nat.testBit_shiftLeft, Nat.testBit_two_pow_sub_one]
  by_cases hn : start ≤ n
  · simp [hn, Bool.and_comm]
  · simp [hn]

/-- R130: the colour is `r[7:3]`, `g[7:2]`, `b[7:3]`, from the top. -/
theorem pack565_eq_append (r g b : Byte) :
    pack565 r g b = r.extractLsb' 3 5 ++ g.extractLsb' 2 6 ++ b.extractLsb' 3 5 := by
  have hr : r.toNat &&& 0xF8 = (r.extractLsb' 3 5).toNat <<< 3 := toNat_and_mask r 3 5
  have hg : g.toNat &&& 0xFC = (g.extractLsb' 2 6).toNat <<< 2 := toNat_and_mask g 2 6
  have hb : b.toNat &&& 0xF8 = (b.extractLsb' 3 5).toNat <<< 3 := toNat_and_mask b 3 5
  have happend : (r.extractLsb' 3 5 ++ g.extractLsb' 2 6 ++ b.extractLsb' 3 5).toNat =
      (r.extractLsb' 3 5).toNat <<< 11 ||| (g.extractLsb' 2 6).toNat <<< 5 ||| (b.extractLsb' 3 5).toNat := by
    rw [BitVec.toNat_append, BitVec.toNat_append, Nat.shiftLeft_or_distrib, ← Nat.shiftLeft_add]
  rw [pack565, hr, hg, hb, Nat.shiftLeft_shiftRight, ← Nat.shiftLeft_add, ← Nat.shiftLeft_add, ← happend,
    BitVec.ofNat_toNat, BitVec.setWidth_eq]

/-- Settles O13: PACK565 is a record only, and its colour is the three fields side by side. -/
theorem packColor : Obligations.PackColor := by
  intro s r g b
  have hx : exec (.pack565 r g b) s = .next (recorded s .ok (.color (pack565 r g b))) := rfl
  have hc : Completed s (recorded s .ok (.color (pack565 r g b))) [] .ok (.color (pack565 r g b)) :=
    ended_nil _ s (by decide : Status.ok ≠ .busError) ▸ completed_ended [] _ _ s
  refine ⟨rfl, _, _, hx, hc, ⟨rfl, rfl⟩, ⟨rfl, rfl, rfl⟩, ?_⟩
  rw [pack565_eq_append]
  refine ⟨?_, ?_, BitVec.extractLsb'_append_eq_right⟩
  · rw [BitVec.extractLsb'_append_eq_of_le (by decide), BitVec.extractLsb'_append_eq_left]
  · rw [BitVec.extractLsb'_append_eq_of_le (by decide), BitVec.extractLsb'_append_eq_right]

end Sys2Proof
end

section
/-! Command framing (41_command_framing.md): an instruction whose actions are one frame sends it, the transfers succeeding,
and the ghosts follow the frame's command byte; SEND and the twelve wire frames are such instructions. -/

namespace Sys2Proof

open Machine

/-- One transfer for the command byte, one for the data (41_command_framing.md R141). -/
theorem xferCount_sendEvents (hasCs : Bool) (cmd : Option Byte) (data : Bytes) :
    xferCount (sendEvents hasCs cmd data) = (if cmd.isSome then 1 else 0) + (if data = [] then 0 else 1) := by
  have line : ∀ l, xferCount (ifLine hasCs (.cs l)) = 0 := fun l => by cases hasCs <;> rfl
  have command : xferCount (commandEvents cmd) = if cmd.isSome then 1 else 0 := by cases cmd <;> rfl
  have payload : xferCount (if data = [] then [] else [.dc .data, .xfer data]) = if data = [] then 0 else 1 := by
    split <;> rfl
  rw [sendEvents, xferCount_append, xferCount_append, xferCount_append, line, line, command, payload, Nat.zero_add,
    Nat.add_zero]

theorem applyActs_ghostActs_device (cmd : Option Byte) (s : State) : (applyActs (ghostActs cmd) s).device = s.device := by
  cases cmd with
  | none => rfl
  | some c =>
    rw [ghostActs]
    cases sleepAfter c <;> cases displayAfter c <;> rfl

theorem applyActs_sendActs_device (d : Device) (cmd : Option Byte) (data : Bytes) (s : State) :
    (applyActs (sendActs d cmd data) s).device = s.device := by
  rw [sendActs, applyActs_append, applyActs_ghostActs_device, applyActs_device_of_quiet _ _ (quiet_frameActs d cmd data)]

/-- The ghosts after a whole frame (41_command_framing.md R146). -/
theorem applyActs_sendActs_ghosts (d : Device) (cmd : Option Byte) (data : Bytes) (s : State) :
    (applyActs (sendActs d cmd data) s).gLife = s.gLife ∧
      (applyActs (sendActs d cmd data) s).gSleep = (cmd.bind ghostSleep).or s.gSleep ∧
      (applyActs (sendActs d cmd data) s).gDisp = (cmd.bind ghostDisplay).or s.gDisp := by
  obtain ⟨hlife, hsleep, hdisp⟩ := applyActs_keepsGhosts (ghostFree_of_quiet (quiet_frameActs d cmd data)) s
  rw [sendActs, applyActs_append, ← hlife, ← hsleep, ← hdisp]
  exact applyActs_ghostActs cmd _

/-- An instruction whose actions are one frame, the frame's transfers succeeding: what it leaves. -/
theorem sends_of_sendActs {i : Instr} {s : State} {d : Device} {cmd : Option Byte} {data : Bytes}
    (hd : s.device = some d) (ha : actsOf s.params d i = some (sendActs d cmd data))
    (hb : BusOk s ((if cmd.isSome then 1 else 0) + (if data = [] then 0 else 1))) :
    Sends i s (sendEvents d.hasCs cmd data) (cmd.bind ghostSleep) (cmd.bind ghostDisplay) := by
  rw [← xferCount_sendEvents d.hasCs, ← eventsOf_sendActs] at hb
  rw [← eventsOf_sendActs]
  exact ⟨_, (exec_of_acts hd ha).trans (drive_of_busOk _ _ hb), completed_applyActs _ s _,
    ⟨applyActs_sendActs_device d cmd data _, applyActs_fault _ _⟩, applyActs_sendActs_ghosts d cmd data _⟩

/-- Settles O19: SEND drives the frame of its command byte and data. -/
theorem sendFrame : Obligations.SendFrame :=
  fun _ _ _ _ hd hb => sends_of_sendActs hd rfl hb

/-- Each wire frame drives the frame of its command byte and data bytes (41_command_framing.md R150 to R161). -/
theorem actsOf_of_wireFrame {i : Instr} {code : Byte} {data : Bytes} (hw : wireFrame i = some (code, data)) (p : Params)
    (d : Device) : actsOf p d i = some (sendActs d (some code) data) := by
  cases i with
  | swreset | slpin | slpout | noron | invoff | invon | dispon | ramwr | madctl | colmod => cases hw; rfl
  | caset a b | raset a b =>
    cases hw
    rw [← be16_eq_be16Z, ← be16_eq_be16Z]
    rfl
  | _ => cases hw

/-- Settles O21: a wire frame is the SEND of its command byte and data bytes. -/
theorem wireFrames : Obligations.WireFrames := by
  intro i code data s d hw hd hb
  refine sends_of_sendActs hd (actsOf_of_wireFrame hw s.params d) ?_
  cases data with
  | nil => exact hb
  | cons => exact hb

end Sys2Proof
end

section
/-! STREAM (43_pixel_streamer.md R180, R181): under either framing a stream is a sequence of data frames, which together
transfer its chunks. -/

namespace Sys2Proof

open Machine

/-! The plan of a stream: its transfers cut the bytes, and its registers stay small. -/

/-- The transfers follow each other in the source without gap or overlap (R180). -/
theorem streamPlan_flatten (src : StreamSource) {full rem pos : Nat} {rest : Bytes} (h : rest.length = 256 * full + rem) :
    ((streamPlan src full rem pos rest).map (fun t => t.2)).flatten = rest := by
  induction full generalizing pos rest with
  | zero =>
    rw [streamPlan]
    split
    · exact (List.eq_nil_of_length_eq_zero (by omega)).symm
    · simp
  | succ full ih =>
    rw [streamPlan, List.map_cons, List.flatten_cons, ih (by rw [List.length_drop, chunkBytes]; omega)]
    exact List.take_append_drop chunkBytes rest

/-- `full` transfers of 256 bytes, then the rest (R180). -/
theorem streamPlan_lengths (src : StreamSource) {full rem pos : Nat} {rest : Bytes} (h : rest.length = 256 * full + rem) :
    ((streamPlan src full rem pos rest).map (fun t => t.2)).map List.length =
      List.replicate full 256 ++ if rem = 0 then [] else [rem] := by
  induction full generalizing pos rest with
  | zero =>
    rw [streamPlan]
    split <;> simp [h]
  | succ full ih =>
    have htake : (rest.take chunkBytes).length = 256 := by rw [List.length_take, chunkBytes]; omega
    rw [streamPlan, List.map_cons, List.map_cons, ih (by rw [List.length_drop, chunkBytes]; omega), htake]
    rfl

theorem chunksOf_flatten (bytes : Bytes) : (chunksOf bytes).flatten = bytes := by
  rw [← streamTransfers_bytes .buffer]
  exact streamPlan_flatten _ (Nat.div_add_mod bytes.length 256).symm

theorem chunksOf_lengths (bytes : Bytes) :
    (chunksOf bytes).map List.length =
      List.replicate (bytes.length / 256) 256 ++ if bytes.length % 256 = 0 then [] else [bytes.length % 256] := by
  rw [← streamTransfers_bytes .buffer]
  exact streamPlan_lengths _ (Nat.div_add_mod bytes.length 256).symm

/-- The working registers fit their words (10_state.md R34): the offset because a buffer is below 2^32 bytes, and because
STAGE is read from its start (R38). -/
theorem streamTransfers_regs_lt {src : StreamSource} {bytes b : Bytes} {r : StreamRegs}
    (hbuffer : src = .buffer → fitsLength bytes) (hlen : bytes.length < 2 ^ 40) (h : (r, b) ∈ streamTransfers src bytes) :
    r.chunks < 2 ^ 32 ∧ r.rem < 2 ^ 32 ∧ r.pos < 2 ^ 32 := by
  obtain ⟨hchunks, hrem, k, hk, hpos⟩ := streamPlan_regs h
  rw [chunkBytes] at hchunks hrem hk
  refine ⟨by omega, by omega, ?_⟩
  cases src with
  | buffer =>
    have := hbuffer rfl
    rw [sourceAdvance, chunkBytes] at hpos
    omega
  | stage =>
    rw [streamTransfers_stage_pos h]
    decide

/-! Data frames. -/

/-- One frame in data mode that makes the transfers `cs` (R181). -/
def dataFrameEvents (hasCs : Bool) (cs : List Bytes) : List Event :=
  ifLine hasCs (.cs .low) ++ (if cs = [] then [] else .dc .data :: cs.map .xfer) ++ ifLine hasCs (.cs .high)

/-- STREAM's data frames: all chunks in one, or one for each chunk, by the value of `STREAM_FRAMING` (R181). -/
theorem streamEvents_eq_dataFrames (d : Device) (p : Params) (bytes : Bytes) :
    ∃ groups : List (List Bytes), groups.flatten = chunksOf bytes ∧
      streamEvents d p bytes = groups.flatMap (dataFrameEvents d.hasCs) := by
  unfold streamEvents
  cases p.streamFraming with
  | perStream => exact ⟨[chunksOf bytes], by simp, by simp [dataFrameEvents, chunksOf_eq_nil]⟩
  | perChunk =>
    refine ⟨(chunksOf bytes).map fun c => [c], List.flatMap_singleton' _, ?_⟩
    rw [List.flatMap_map]
    refine List.flatMap_congr fun c hc => ?_
    simp [sendEvents, commandEvents, dataFrameEvents, ne_nil_of_mem_chunksOf hc]

theorem transfersOf_ifLine_cs (present : Bool) (l : Level) : transfersOf (ifLine present (.cs l)) = [] := by
  cases present <;> rfl

theorem transfersOf_map_xfer (cs : List Bytes) : transfersOf (cs.map .xfer) = cs := by
  simp [transfersOf, List.filterMap_map]

theorem transfersOf_dataFrameEvents (hasCs : Bool) (cs : List Bytes) :
    transfersOf (dataFrameEvents hasCs cs) = cs := by
  have hdata : transfersOf (if cs = [] then [] else .dc .data :: cs.map .xfer) = cs := by
    cases cs with
    | nil => rfl
    | cons c rest => exact transfersOf_map_xfer (c :: rest)
  rw [dataFrameEvents, transfersOf_append, transfersOf_append, transfersOf_ifLine_cs, transfersOf_ifLine_cs, hdata,
    List.nil_append, List.append_nil]

theorem transfersOf_flatMap {α : Type} (xs : List α) (f : α → List Event) :
    transfersOf (xs.flatMap f) = xs.flatMap fun x => transfersOf (f x) :=
  List.filterMap_flatMap ..

/-- A stream transfers its chunks, under either framing. -/
theorem transfersOf_streamEvents (d : Device) (p : Params) (bytes : Bytes) :
    transfersOf (streamEvents d p bytes) = chunksOf bytes := by
  obtain ⟨groups, hgroups, hevents⟩ := streamEvents_eq_dataFrames d p bytes
  rw [hevents, transfersOf_flatMap, ← hgroups]
  simp [transfersOf_dataFrameEvents]

theorem command_not_mem_dataFrameEvents (hasCs : Bool) (cs : List Bytes) : .dc .cmd ∉ dataFrameEvents hasCs cs := by
  have hline : ∀ l, .dc .cmd ∉ ifLine hasCs (.cs l) := fun l => by cases hasCs <;> simp [ifLine]
  have hdata : .dc .cmd ∉ (if cs = [] then [] else .dc .data :: cs.map Event.xfer) := by split <;> simp
  simp only [dataFrameEvents, List.mem_append, hline, hdata, or_self, not_false_eq_true]

theorem command_not_mem_streamEvents (d : Device) (p : Params) (bytes : Bytes) :
    .dc .cmd ∉ streamEvents d p bytes := by
  obtain ⟨groups, -, hevents⟩ := streamEvents_eq_dataFrames d p bytes
  rw [hevents, List.mem_flatMap]
  rintro ⟨cs, -, hmem⟩
  exact command_not_mem_dataFrameEvents _ cs hmem

/-! Every transfer finds the line in data mode. -/

/-- The events themselves set data mode before each of their transfers, and it is the mode at the transfer. -/
def TransfersInDataMode (evs : List Event) : Prop :=
  ∀ before b after, evs = before ++ .xfer b :: after → lastDc before = some .data

theorem transfersInDataMode_of_no_xfer {evs : List Event} (h : ∀ b, .xfer b ∉ evs) : TransfersInDataMode evs := by
  rintro before b after rfl
  exact absurd (by simp) (h b)

theorem TransfersInDataMode.append {x y : List Event} (hx : TransfersInDataMode x) (hy : TransfersInDataMode y) :
    TransfersInDataMode (x ++ y) := by
  intro before b after h
  rcases List.append_eq_append_iff.1 h with ⟨mid, rfl, hmid⟩ | ⟨mid, hmid, hafter⟩
  · rw [lastDc_append, hy mid b after hmid, Option.some_or]
  · cases mid with
    | nil =>
      have hb := hy [] b after hafter.symm
      cases hb
    | cons e mid =>
      obtain ⟨rfl, -⟩ := List.cons.inj hafter
      exact hx before b mid hmid

theorem transfersInDataMode_flatMap {α : Type} {f : α → List Event} (h : ∀ x, TransfersInDataMode (f x)) (xs : List α) :
    TransfersInDataMode (xs.flatMap f) := by
  induction xs with
  | nil => exact transfersInDataMode_of_no_xfer (by simp)
  | cons x rest ih => exact (h x).append ih

theorem lastDc_map_xfer (cs : List Bytes) : lastDc (cs.map .xfer) = none := by
  simp [lastDc, List.filterMap_map]

/-- Data mode is set once, and the transfers after it leave it. -/
theorem transfersInDataMode_data_xfers (cs : List Bytes) : TransfersInDataMode (.dc .data :: cs.map .xfer) := by
  intro before b after h
  cases before with
  | nil => cases h
  | cons e before =>
    obtain ⟨rfl, hmap⟩ := List.cons.inj h
    obtain ⟨first, -, -, rfl, -⟩ := List.map_eq_append_iff.1 hmap
    exact (lastDc_append [.dc .data] _).trans (by rw [lastDc_map_xfer]; rfl)

theorem transfersInDataMode_dataFrameEvents (hasCs : Bool) (cs : List Bytes) :
    TransfersInDataMode (dataFrameEvents hasCs cs) := by
  have hline : ∀ l, TransfersInDataMode (ifLine hasCs (.cs l)) := fun l =>
    transfersInDataMode_of_no_xfer fun b => by cases hasCs <;> simp [ifLine]
  refine ((hline .low).append ?_).append (hline .high)
  split
  · exact transfersInDataMode_of_no_xfer (by simp)
  · exact transfersInDataMode_data_xfers cs

theorem transfersInDataMode_streamEvents (d : Device) (p : Params) (bytes : Bytes) :
    TransfersInDataMode (streamEvents d p bytes) := by
  obtain ⟨groups, -, hevents⟩ := streamEvents_eq_dataFrames d p bytes
  exact hevents ▸ transfersInDataMode_flatMap (transfersInDataMode_dataFrameEvents d.hasCs) groups

/-- Settles O25: STREAM's data frames transfer its chunks, which cut the bytes, from registers that fit their words. -/
theorem streamChunks : Obligations.StreamChunks := by
  intro d p src bytes
  rw [eventsOf_streamActs, transfersOf_streamEvents]
  refine ⟨chunksOf_flatten bytes, chunksOf_lengths bytes, command_not_mem_streamEvents d p bytes,
    transfersInDataMode_streamEvents d p bytes, fun hbuffer hlen r hr => ?_⟩
  obtain ⟨_, hmem⟩ := stream_mem_streamActs hr
  exact streamTransfers_regs_lt hbuffer hlen hmem

end Sys2Proof
end

section
/-! The rasterizer (44_rasterizer.md): a drawing request emits the events of its actions and keeps registers and ghosts;
PIXEL and FILL draw by their rules. -/

namespace Sys2Proof

open Machine

/-- An instruction whose actions are quiet draws their events, its transfers succeeding. -/
theorem draws_of_acts {i : Instr} {s : State} {d : Device} {acts : List Act} {evs : List Event} (hd : s.device = some d)
    (ha : actsOf s.params d i = some acts) (hq : Quiet acts) (hev : eventsOf acts = evs) (hb : BusOk s (xferCount evs)) :
    Draws i s evs := by
  subst hev
  exact draws_of_quiet (exec_of_acts hd ha) hq hb

/-- The descriptor of PIXEL (44_rasterizer.md R200). -/
theorem decode_pixel (x y color : Half) :
    decode ([0x50] ++ be16Z x.toNat ++ be16Z y.toNat ++ be16Z color.toNat) = .instr (.pixel x y color) := by
  simp only [← be16_eq_be16Z]
  exact decode_encode (i := .pixel x y color) rfl rfl

/-- Settles O30: PIXEL drives a SETWIN of one cell and the stream of the colour's bytes, which are quiet. -/
theorem pixelDraws : Obligations.PixelDraws :=
  fun _ _ x y color hd => ⟨decode_pixel x y color, draws_of_acts hd rfl (quiet_pixelActs ..) (eventsOf_pixelActs ..)⟩

/-- The descriptor of FILL (44_rasterizer.md R224). -/
theorem decode_fill (color : Half) : decode ([0x56] ++ be16Z color.toNat) = .instr (.fill color) := by
  rw [← be16_eq_be16Z]
  exact decode_encode (i := .fill color) rfl rfl

/-- The whole frame of a Device of positive size is an accepted window, under either policy (42_window_manager.md R170). -/
theorem windowOk_wholeFrame {d : Device} (p : Params) (hw : 0 < d.width.toNat) (hh : 0 < d.height.toNat) :
    WindowOk d p 0 0 ((d.width.toNat : Int) - 1) ((d.height.toNat : Int) - 1) :=
  ⟨by omega, by omega, by omega, by omega, fun _ => ⟨Int.le_refl 0, Int.le_refl 0⟩⟩

/-- What FILL's actions emit: its window is the whole frame, and so accepted. -/
theorem eventsOf_fillActs {d : Device} (p : Params) (color : Half) (hw : 0 < d.width.toNat) (hh : 0 < d.height.toNat) :
    eventsOf (fillActs d p color) =
      windowEvents d 0 0 ((d.width.toNat : Int) - 1) ((d.height.toNat : Int) - 1) ++
        sfillEvents d p color (d.width.toNat * d.height.toNat) := by
  rw [fillActs, eventsOf_frectActs, frectEvents, setwinEvents, Int.zero_add, Int.zero_add, zext16, zext16,
    if_pos (windowOk_wholeFrame p hw hh)]

/-- Settles O40: FILL drives the FRECT of the whole frame, whose window is accepted. -/
theorem fillDraws : Obligations.FillDraws := by
  rintro s d color _ hd hw hh rfl
  exact ⟨decode_fill color, draws_of_acts hd rfl (quiet_frectActs ..) (eventsOf_fillActs s.params color hw hh)⟩

end Sys2Proof
end

section
/-! The lifecycle (45_lifecycle.md): HRESET, BLON and BLOFF make no transfer, so no bus outcome stops them; SLEEP is one
frame; GETROT only answers. -/

namespace Sys2Proof

open Machine

/-- A request that makes no transfer does not depend on the bus (60_exceptions.md R266). -/
theorem busOk_of_no_xfer (s : State) {evs : List Event} (h : xferCount evs = 0) : BusOk s (xferCount evs) := by
  rw [h]
  exact fun k hk => absurd hk (Nat.not_lt_zero k)

/-! The hardware reset. -/

theorem xferCount_hresetEvents (hasCs : Bool) : xferCount (hresetEvents hasCs) = 0 := by
  cases hasCs <;> rfl

theorem eventsOf_hresetActs (d : Device) : eventsOf (hresetActs d) = hresetEvents d.hasCs := by
  rw [hresetActs, eventsOf_append, eventsOf_append, eventsOf_append, eventsOf_append, eventsOf_csActs, eventsOf_csActs]
  exact List.append_nil _

/-- The two resets of the panel write `G_LIFE` first and the other ghosts last (45_lifecycle.md R236, R238): what is left
when nothing between writes the Device or a ghost. -/
theorem applyActs_panelReset {body : List Act} (hq : Quiet body) (s : State) :
    (applyActs ([.life .resetting] ++ body ++ panelResetActs) s).device = s.device ∧
      (applyActs ([.life .resetting] ++ body ++ panelResetActs) s).gLife = some .resetting ∧
      (applyActs ([.life .resetting] ++ body ++ panelResetActs) s).gSleep = some .asleep ∧
      (applyActs ([.life .resetting] ++ body ++ panelResetActs) s).gDisp = some .displayOff := by
  rw [applyActs_append, applyActs_append]
  exact ⟨applyActs_device_of_quiet body _ hq, applyActs_gLife_of_quiet body _ hq, rfl, rfl⟩

/-- Between the ghost writes HRESET only drives lines and waits. -/
theorem hresetActs_eq_panelReset (d : Device) :
    ∃ body, Quiet body ∧ hresetActs d = [.life .resetting] ++ body ++ panelResetActs := by
  refine ⟨_, ?_, rfl⟩
  exact quiet_append (quiet_append (quiet_csActs d .low) rfl) (quiet_csActs d .high)

theorem applyActs_hresetActs (d : Device) (s : State) :
    (applyActs (hresetActs d) s).device = s.device ∧
      (applyActs (hresetActs d) s).gLife = some .resetting ∧
      (applyActs (hresetActs d) s).gSleep = some .asleep ∧
      (applyActs (hresetActs d) s).gDisp = some .displayOff := by
  obtain ⟨body, hq, hacts⟩ := hresetActs_eq_panelReset d
  rw [hacts]
  exact applyActs_panelReset hq s

/-- Settles O41: HRESET's actions make no transfer, so all of them are performed, whatever the bus reports. -/
theorem hresetPulses : Obligations.HresetPulses := by
  intro s d hd
  have hno : xferCount (eventsOf (hresetActs d)) = 0 := by rw [eventsOf_hresetActs, xferCount_hresetEvents]
  have hrun := (exec_of_acts (i := .hreset) hd rfl).trans (drive_of_busOk _ _ (busOk_of_no_xfer _ hno))
  have hdone := eventsOf_hresetActs d ▸ completed_applyActs (hresetActs d) s (latchesOf .hreset)
  have hxfers := applyActs_xfers (hresetActs d) (acceptRequest (latchesOf .hreset) s)
  rw [hno] at hxfers
  obtain ⟨hdev, hghosts⟩ := applyActs_hresetActs d (acceptRequest (latchesOf .hreset) s)
  exact ⟨decode_encode (i := .hreset) rfl rfl, _, hrun, hdone, ⟨hdev, applyActs_fault _ _⟩, hxfers, hghosts⟩

/-! Sleep, backlight, rotation. -/

/-- Settles O44: SLEEP drives the one frame of its command byte. -/
theorem sleepSends : Obligations.SleepSends := fun _ _ hd =>
  ⟨decode_encode (i := .sleep true) rfl rfl, decode_encode (i := .sleep false) rfl rfl, fun hb =>
    ⟨sends_of_sendActs (cmd := some 0x10) (data := []) hd rfl hb,
      sends_of_sendActs (cmd := some 0x11) (data := []) hd rfl hb⟩⟩

/-- What a switch of the backlight emits: an absent line skips the write and keeps the delay (45_lifecycle.md R246). -/
theorem eventsOf_backlightActs (d : Device) (l : Level) :
    eventsOf (backlightActs d l) = ifLine d.hasBl (.bl l) ++ [.delay 10] := by
  unfold backlightActs ifLine
  split <;> rfl

theorem xferCount_backlight (present : Bool) (l : Level) : xferCount (ifLine present (.bl l) ++ [.delay 10]) = 0 := by
  cases present <;> rfl

/-- A switch of the backlight, whatever the bus reports. -/
theorem draws_of_backlightActs {i : Instr} {s : State} {d : Device} {l : Level} (hd : s.device = some d)
    (ha : actsOf s.params d i = some (backlightActs d l)) : Draws i s (ifLine d.hasBl (.bl l) ++ [.delay 10]) :=
  draws_of_acts hd ha (quiet_backlightActs d l) (eventsOf_backlightActs d l) (busOk_of_no_xfer s (xferCount_backlight _ l))

/-- Settles O46: BLON and BLOFF switch the backlight. -/
theorem backlightSwitches : Obligations.BacklightSwitches := fun _ _ hd =>
  ⟨decode_encode (i := .blon) rfl rfl, decode_encode (i := .bloff) rfl rfl, draws_of_backlightActs hd rfl,
    draws_of_backlightActs hd rfl⟩

/-- Settles O50: GETROT answers with the rotation where the variant has one. -/
theorem getrotReturns : Obligations.GetrotReturns := by
  intro s d hd
  refine ⟨decode_encode (i := .getrot) rfl rfl, ?_⟩
  rw [exec_getrot, withDevice_some hd]
  cases hr : d.rotCap with
  | true => exact whenRotCapable_true hr
  | false => exact whenRotCapable_false hr

end Sys2Proof
end

section
/-! Bus failures (60_exceptions.md R266, R277): how far an instruction gets by what FAULT is after it, and that an abort
is precise. -/

namespace Sys2Proof

open Machine

/-- No bus failure: the request performed all its actions, and each of its transfers succeeded. -/
theorem drive_of_no_fault {acts : List Act} {l : Latches} {s t : State} (h : drive acts (acceptRequest l s) = .next t)
    (hf : t.fault = false) :
    Completed s t (eventsOf acts) .ok .empty ∧ BusOk s (xferCount (eventsOf acts)) := by
  rcases drive_cases acts (acceptRequest l s) with ⟨hx, hok⟩ | ⟨before, b, after, -, -, -, hx⟩
  · obtain rfl := Host.Outcome.next.inj (hx.symm.trans h)
    exact ⟨completed_applyActs acts s l, hok⟩
  · obtain rfl := Host.Outcome.next.inj (hx.symm.trans h)
    cases hf

/-- A bus failure: the request performed its actions up to the first transfer that failed. -/
theorem drive_of_fault {acts : List Act} {l : Latches} {s t : State} (h : drive acts (acceptRequest l s) = .next t)
    (hs : s.fault = false) (hf : t.fault = true) :
    ∃ before b after, acts = before ++ .xfer b :: after ∧ BusOk s (xferCount (eventsOf before)) ∧
      outcomeAt s (s.xfers + xferCount (eventsOf before)) = .fail ∧
      t.trace = s.trace ++ (eventsOf before ++ [.xfer b]) ∧
      t.xfers = s.xfers + (xferCount (eventsOf before) + 1) := by
  rcases drive_cases acts (acceptRequest l s) with ⟨hx, -⟩ | ⟨before, b, after, hacts, hok, hfail, hx⟩
  · obtain rfl := Host.Outcome.next.inj (hx.symm.trans h)
    rw [complete_fault, applyActs_fault, acceptRequest_fault, hs] at hf
    cases hf
  · obtain rfl := Host.Outcome.next.inj (hx.symm.trans h)
    have hev : eventsOf (before ++ [.xfer b]) = eventsOf before ++ [.xfer b] := eventsOf_append ..
    refine ⟨before, b, after, hacts, hok, hfail, ?_, ?_⟩
    · exact (applyActs_trace _ _).trans (by rw [hev]; rfl)
    · exact (applyActs_xfers _ _).trans (by rw [hev, xferCount_append]; rfl)

/-- An instruction that drives no actions emits nothing and leaves FAULT. -/
theorem exec_of_no_acts_silent {i : Instr} {s t : State} (h : ∀ d, s.device = some d → actsOf s.params d i = none)
    (ht : exec i s = .next t) : t.trace = s.trace ∧ t.xfers = s.xfers ∧ t.fault = s.fault := by
  by_cases hc : ∃ f, i = .config f
  · obtain ⟨f, rfl⟩ := hc
    rcases execConfig_cases f s with ⟨st, -, hx⟩ | ⟨o, -, -, -, hx⟩
    · obtain rfl := Host.Outcome.next.inj (hx.symm.trans ht)
      exact ⟨rfl, rfl, rfl⟩
    · obtain rfl := Host.Outcome.next.inj (hx.symm.trans ht)
      exact ⟨rfl, rfl, rfl⟩
  · obtain ⟨st, v, hx, -, -⟩ := exec_of_no_acts (fun f e => hc ⟨f, e⟩) h
    obtain rfl := Host.Outcome.next.inj (hx.symm.trans ht)
    exact ⟨rfl, rfl, rfl⟩

/-- The conclusion of AbortPrecise: `t` is where the run from `s` stopped, `u` where one without bus failure ends. -/
def CutPrecisely (s t u : State) : Prop :=
  t.trace <+: u.trace ∧ (t.fault = false → t.trace = u.trace ∧ BusOk s (t.xfers - s.xfers)) ∧
    (t.fault = true →
      s.xfers < t.xfers ∧ outcomeAt s (t.xfers - 1) = .fail ∧ BusOk s (t.xfers - 1 - s.xfers) ∧
        ∃ b, t.trace.getLast? = some (.xfer b))

/-- Two runs of the same actions, the second without bus failure. -/
theorem cutPrecisely_of_drive {acts : List Act} {l : Latches} {s s' t u : State} (hs : s.fault = false)
    (htrace : s'.trace = s.trace) (ht : drive acts (acceptRequest l s) = .next t)
    (hu : drive acts (acceptRequest l s') = .next u) (huf : u.fault = false) : CutPrecisely s t u := by
  obtain ⟨⟨hutr, -⟩, -⟩ := drive_of_no_fault hu huf
  rw [htrace] at hutr
  cases htf : t.fault with
  | false =>
    obtain ⟨⟨htr, -, -, hxf, -⟩, hok⟩ := drive_of_no_fault ht htf
    have heq : t.trace = u.trace := htr.trans hutr.symm
    refine ⟨heq ▸ List.prefix_refl _, fun _ => ⟨heq, ?_⟩, (fun h => nomatch htf.symm.trans h)⟩
    rw [hxf, Nat.add_sub_cancel_left]
    exact hok
  | true =>
    obtain ⟨before, b, after, rfl, hok, hfail, htr, hxf⟩ := drive_of_fault ht hs htf
    have hlast : t.xfers - 1 = s.xfers + xferCount (eventsOf before) := by omega
    refine ⟨?_, (fun h => nomatch htf.symm.trans h), fun _ => ⟨by omega, hlast ▸ hfail, ?_, b, ?_⟩⟩
    · have hacts : eventsOf (before ++ .xfer b :: after) = eventsOf before ++ [.xfer b] ++ eventsOf after := by
        rw [eventsOf_append, eventsOf_cons, List.append_assoc]
        rfl
      rw [htr, hutr, hacts]
      exact (List.prefix_append_right_inj s.trace).2 (List.prefix_append _ _)
    · rw [hlast, Nat.add_sub_cancel_left]
      exact hok
    · rw [htr, ← List.append_assoc, List.getLast?_concat]

/-- Two runs of one instruction on the same Device, the second without bus failure: they drive the same actions, or
none. -/
theorem cutPrecisely_of_exec {i : Instr} {s s' t u : State} (hs : s.fault = false) (hdev : s'.device = s.device)
    (hpar : s'.params = s.params) (htrace : s'.trace = s.trace) (ht : exec i s = .next t) (hu : exec i s' = .next u)
    (huf : u.fault = false) : CutPrecisely s t u := by
  by_cases ha : ∃ d acts, s.device = some d ∧ actsOf s.params d i = some acts
  · obtain ⟨d, acts, hd, ha⟩ := ha
    have hx := exec_of_acts hd ha
    have hx' := exec_of_acts (s := s') (hdev.trans hd) (hpar ▸ ha)
    exact cutPrecisely_of_drive hs htrace (hx.symm.trans ht) (hx'.symm.trans hu) huf
  · have hno : ∀ d, s.device = some d → actsOf s.params d i = none := fun d hd =>
      Option.eq_none_iff_forall_ne_some.2 fun acts e => ha ⟨d, acts, hd, e⟩
    obtain ⟨htr, hxf, hf⟩ := exec_of_no_acts_silent hno ht
    obtain ⟨hutr, -, -⟩ := exec_of_no_acts_silent (by rwa [hdev, hpar]) hu
    have heq : t.trace = u.trace := htr.trans (htrace.symm.trans hutr.symm)
    refine ⟨heq ▸ List.prefix_refl _, fun _ => ⟨heq, ?_⟩, fun h => nomatch hs.symm.trans (hf.symm.trans h)⟩
    rw [hxf, Nat.sub_self]
    exact fun k hk => absurd hk (Nat.not_lt_zero k)

/-- Settles O52: the script is no input of the actions an instruction drives. -/
theorem abortPrecise : Obligations.AbortPrecise :=
  fun _ s _ _ script hs ht hu huf =>
    cutPrecisely_of_exec (s' := { s with busScript := script }) hs rfl rfl rfl ht hu huf

/-- Settles O53: FAULT after an instruction is the old one, or set with the status BUS_ERROR. -/
theorem faultRecordsBusErrors : Obligations.FaultRecordsBusErrors := by
  intro i s t ht
  by_cases hc : ∃ f, i = .config f
  · obtain ⟨f, rfl⟩ := hc
    have hfault : ∀ st : Status, st ≠ .busError → (s.fault = true ↔ s.fault = true ∨ st = .busError) :=
      fun st hst => ⟨.inl, fun h => h.resolve_right hst⟩
    rcases execConfig_cases f s with ⟨st, hst, hx⟩ | ⟨o, -, -, -, hx⟩
    · obtain rfl := Host.Outcome.next.inj (hx.symm.trans ht)
      exact ⟨⟨st, .empty⟩, rfl, hfault st (by rcases hst with rfl | rfl <;> decide)⟩
    · obtain rfl := Host.Outcome.next.inj (hx.symm.trans ht)
      exact ⟨⟨.ok, .empty⟩, rfl, hfault .ok (by decide)⟩
  · obtain ⟨done, st, v, -, hx⟩ := exec_eq_ended s fun f e => hc ⟨f, e⟩
    obtain rfl := Host.Outcome.next.inj ((hx s (.refl s)).symm.trans ht)
    obtain ⟨-, hrec, -⟩ := completed_ended done st v s
    exact ⟨⟨st, v⟩, hrec, ended_fault_iff done st v s⟩

end Sys2Proof
end

section
/-! Construction (45_lifecycle.md R230, R231): CONFIG checks the lines, then the size, then that there is an origin. -/

namespace Sys2Proof

open Machine

/-- A mandatory line is missing. -/
abbrev LacksLine (f : ConfigFields) : Prop := f.rstp = false ∨ f.dcp = false

/-- The size is not positive. -/
abbrev ZeroSize (f : ConfigFields) : Prop := f.width = 0 ∨ f.height = 0

theorem exec_config_of_lacksLine {f : ConfigFields} (s : State) (h : LacksLine f) :
    exec (.config f) s = .next (dropDevice (recorded s .constructLines .empty)) := by
  change execConfig f s = _
  rw [execConfig, if_pos h]
  rfl

theorem exec_config_of_zeroSize {f : ConfigFields} (s : State) (hl : ¬LacksLine f) (h : ZeroSize f) :
    exec (.config f) s = .next (dropDevice (recorded s .constructGeometry .empty)) := by
  change execConfig f s = _
  rw [execConfig, if_neg hl, if_pos h]
  rfl

theorem exec_config_of_no_origin {f : ConfigFields} {s : State} (hl : ¬LacksLine f) (hz : ¬ZeroSize f)
    (h : configOrigin s.params f = none) :
    exec (.config f) s = .next (dropDevice (recorded s .constructGeometry .empty)) := by
  change execConfig f s = _
  rw [execConfig, if_neg hl, if_neg hz, h]
  rfl

theorem exec_config_of_origin {f : ConfigFields} {s : State} {o : Half × Half} (hl : ¬LacksLine f) (hz : ¬ZeroSize f)
    (h : configOrigin s.params f = some o) :
    exec (.config f) s = .next (constructDevice (configDevice f o) (recorded s .ok .empty)) := by
  change execConfig f s = _
  rw [execConfig, if_neg hl, if_neg hz, h]
  rfl

theorem not_lacksLine {f : ConfigFields} (hr : f.rstp = true) (hd : f.dcp = true) : ¬LacksLine f := by
  simp [LacksLine, hr, hd]

/-- The preset origin is that of the first row of the size (R232). -/
theorem presetOrigin_eq_some_iff {p : Params} {width height xs ys : Half} :
    presetOrigin p width height = some (xs, ys) ↔ PresetIs p width height xs ys := by
  have hfind : presetOrigin p width height = some (xs, ys) ↔
      p.presets.find? (fun r => r.width == width && r.height == height) = some ⟨width, height, xs, ys⟩ := by
    unfold presetOrigin
    constructor
    · intro h
      split at h
      · rename_i r hr
        have hrow := List.find?_some hr
        simp only [Bool.and_eq_true, beq_iff_eq] at hrow
        obtain ⟨rfl, rfl⟩ := hrow
        obtain ⟨rfl, rfl⟩ := Prod.mk.inj (Option.some.inj h)
        exact hr
      · cases h
    · intro h
      rw [h]
  rw [hfind, List.find?_eq_some_iff_append, PresetIs]
  simp [← not_and_or]

/-- Settles O17: the lines are checked first. -/
theorem configLines : Obligations.ConfigLines := fun s _ h => exec_config_of_lacksLine s h

/-- Settles O16: both lines, a positive size and an origin are all that CONFIG asks. -/
theorem configConstructs : Obligations.ConfigConstructs := by
  intro s f xs ys hr hd hw hh horg
  have ho : configOrigin s.params f = some (xs, ys) := by
    split at horg
    · rename_i hp
      obtain ⟨rfl, rfl⟩ := horg
      exact if_pos hp
    · rename_i hp
      exact (if_neg hp).trans (presetOrigin_eq_some_iff.2 horg)
  exact exec_config_of_origin (not_lacksLine hr hd) (not_or.2 ⟨hw, hh⟩) ho

/-- Settles O18: after the lines the size is checked, then the origin. -/
theorem configGeometry : Obligations.ConfigGeometry := by
  intro s f hr hd h
  have hl := not_lacksLine hr hd
  by_cases hz : ZeroSize f
  · exact exec_config_of_zeroSize s hl hz
  · obtain ⟨horg, hno⟩ := (or_assoc.2 h).resolve_left hz
    have ho : configOrigin s.params f = none := by
      refine (if_neg (by simp [horg])).trans (Option.eq_none_iff_forall_ne_some.2 fun o e => ?_)
      exact hno o.1 o.2 (presetOrigin_eq_some_iff.1 e)
    exact exec_config_of_no_origin hl hz ho

end Sys2Proof
end

section
/-! The value of STREAM_FRAMING (43_pixel_streamer.md R182, R192): with the writes of chip-select and of the
data/command line left out, an instruction drives the same actions under either value, and
leaving them out commutes with the run. -/

namespace Sys2Proof

open Machine

/-! Actions without the line writes of a frame. -/

/-- The action writes chip-select or the data/command line. -/
def writesFrameLine : Act → Bool
  | .cs _ => true
  | .dc _ => true
  | _ => false

/-- The actions but for the writes of chip-select and of the data/command line. -/
def offFrameActs (acts : List Act) : List Act := acts.filter fun a => !writesFrameLine a

@[simp] theorem offFrameActs_append (a b : List Act) : offFrameActs (a ++ b) = offFrameActs a ++ offFrameActs b :=
  List.filter_append ..

theorem offFrameActs_cons_of_writes {a : Act} (ha : writesFrameLine a = true) (acts : List Act) :
    offFrameActs (a :: acts) = offFrameActs acts :=
  List.filter_cons_of_neg (by simp [ha])

theorem offFrameActs_cons_of_not_writes {a : Act} (ha : writesFrameLine a = false) (acts : List Act) :
    offFrameActs (a :: acts) = a :: offFrameActs acts :=
  List.filter_cons_of_pos (by simp [ha])

theorem offFrameActs_flatMap {α : Type} (xs : List α) (f : α → List Act) :
    offFrameActs (xs.flatMap f) = xs.flatMap fun x => offFrameActs (f x) :=
  List.filter_flatMap ..

@[simp] theorem offFrameActs_csActs (d : Device) (l : Level) : offFrameActs (csActs d l) = [] := by
  unfold csActs
  split <;> rfl

/-- Of a frame that carries data only, its transfer is left. -/
theorem offFrameActs_dataFrame (d : Device) {data : Bytes} (h : data ≠ []) :
    offFrameActs (frameActs d none data) = [.xfer data] := by
  cases data with
  | nil => exact absurd rfl h
  | cons b rest =>
    rw [frameActs, offFrameActs_append, offFrameActs_append, offFrameActs_append, offFrameActs_csActs,
      offFrameActs_csActs]
    rfl

/-- Of a stream its transfers and working registers are left, under either framing. -/
theorem offFrameActs_streamActs (d : Device) (p : Params) (src : StreamSource) (bytes : Bytes) :
    offFrameActs (streamActs d p src bytes) =
      (streamTransfers src bytes).flatMap fun u => [.stream u.1, .xfer u.2] := by
  unfold streamActs
  cases p.streamFraming with
  | perStream =>
    dsimp only
    rw [offFrameActs_append, offFrameActs_append, offFrameActs_csActs, offFrameActs_csActs, List.append_nil,
      List.nil_append]
    cases streamTransfers src bytes with
    | nil => rfl
    | cons t rest =>
      rw [streamDataActs, offFrameActs_cons_of_writes rfl, offFrameActs_flatMap]
      rfl
  | perChunk =>
    dsimp only
    rw [offFrameActs_flatMap]
    refine List.flatMap_congr fun u hu => ?_
    rw [offFrameActs_cons_of_not_writes rfl, offFrameActs_dataFrame d (ne_nil_of_mem_streamTransfers hu)]

/-! The actions of the rules under another framing. -/

/-- The parameters with another value of STREAM_FRAMING (00_scope.md R12). -/
def reframed (f : StreamFraming) (p : Params) : Params := { p with streamFraming := f }

section
variable (d : Device) (p : Params) (f : StreamFraming)

@[simp] theorem setwinActs_reframed (x0 y0 x1 y1 : Int) :
    setwinActs d (reframed f p) x0 y0 x1 y1 = setwinActs d p x0 y0 x1 y1 := rfl

@[simp] theorem rotateActs_reframed (n : Int) : rotateActs d (reframed f p) n = rotateActs d p n := rfl

@[simp] theorem initRotateActs_reframed : initRotateActs d (reframed f p) = initRotateActs d p := rfl

@[simp] theorem offFrameActs_streamActs_reframed (src : StreamSource) (bytes : Bytes) :
    offFrameActs (streamActs d (reframed f p) src bytes) = offFrameActs (streamActs d p src bytes) := by
  rw [offFrameActs_streamActs, offFrameActs_streamActs]

@[simp] theorem offFrameActs_sfillActs_reframed (color : Half) (count : Int) :
    offFrameActs (sfillActs d (reframed f p) color count) = offFrameActs (sfillActs d p color count) := by
  rw [sfillActs, sfillActs, offFrameActs_cons_of_not_writes rfl, offFrameActs_cons_of_not_writes rfl,
    offFrameActs_streamActs_reframed]

@[simp] theorem offFrameActs_blitActs_reframed (x y w h : Int) (buf : Bytes) :
    offFrameActs (blitActs d (reframed f p) x y w h buf) = offFrameActs (blitActs d p x y w h buf) := by
  simp [blitActs]

@[simp] theorem offFrameActs_pixelActs_reframed (x y : Int) (color : Half) :
    offFrameActs (pixelActs d (reframed f p) x y color) = offFrameActs (pixelActs d p x y color) := by
  simp [pixelActs]

@[simp] theorem offFrameActs_hlineActs_reframed (x y len : Int) (color : Half) :
    offFrameActs (hlineActs d (reframed f p) x y len color) = offFrameActs (hlineActs d p x y len color) := by
  simp [hlineActs]

@[simp] theorem offFrameActs_vlineActs_reframed (x y len : Int) (color : Half) :
    offFrameActs (vlineActs d (reframed f p) x y len color) = offFrameActs (vlineActs d p x y len color) := by
  simp [vlineActs]

@[simp] theorem offFrameActs_lineActs_reframed (x0 y0 x1 y1 : Int) (color : Half) :
    offFrameActs (lineActs d (reframed f p) x0 y0 x1 y1 color) = offFrameActs (lineActs d p x0 y0 x1 y1 color) := by
  rw [lineActs, lineActs, offFrameActs_flatMap, offFrameActs_flatMap]
  refine List.flatMap_congr fun t _ => ?_
  rw [linePointActs, linePointActs, offFrameActs_cons_of_not_writes rfl, offFrameActs_cons_of_not_writes rfl]
  rcases t with ⟨r, _ | c⟩
  · rfl
  · cases c <;> simp [lineCallActs]

@[simp] theorem offFrameActs_frectActs_reframed (x y w h : Int) (color : Half) :
    offFrameActs (frectActs d (reframed f p) x y w h color) = offFrameActs (frectActs d p x y w h color) := by
  simp [frectActs]

/-- Of INIT's steps only the stream of its black frame reads the framing. -/
@[simp] theorem offFrameActs_initActs_reframed :
    offFrameActs (initActs d (reframed f p)) = offFrameActs (initActs d p) := by
  simp only [initActs, offFrameActs_append, offFrameActs_frectActs_reframed, initRotateActs_reframed]
  rfl

/-- The actions of every instruction. -/
theorem offFrameActs_actsOf_reframed (i : Instr) :
    (actsOf (reframed f p) d i).map offFrameActs = (actsOf p d i).map offFrameActs := by
  cases i with
  | sfill | blit | pixel | hline | vline | line | rect | frect | fill | init => simp [actsOf, rectActs, fillActs]
  | _ => rfl

end

/-! Runs without the line writes of a frame. -/

/-- The state but for what the line writes of a frame leave and for the framing itself. -/
def offFraming (s : State) : State :=
  { s with trace := offFrame s.trace, lCs := none, lDc := none, params := reframed .perStream s.params }

theorem offFraming_applyAct_of_writes {a : Act} (ha : writesFrameLine a = true) (s : State) :
    offFraming (applyAct a s) = offFraming s := by
  cases a with
  | cs l | dc m => simp [offFraming, applyAct, offFrame]
  | _ => cases ha

theorem offFraming_applyAct_of_not_writes {a : Act} (ha : writesFrameLine a = false) (s : State) :
    offFraming (applyAct a s) = applyAct a (offFraming s) := by
  cases a with
  | cs | dc => cases ha
  | rst | bl | delay | xfer => simp [offFraming, applyAct, offFrame]
  | _ => rfl

/-- The flow with its state changed. -/
def mapFlow (g : State → State) : Flow → Flow
  | .running s => .running (g s)
  | .raised st s => .raised st (g s)

theorem stepAct_of_writes {a : Act} (ha : writesFrameLine a = true) (s : State) :
    stepAct a s = .running (applyAct a s) := by
  cases a with
  | xfer => cases ha
  | _ => rfl

/-- The bus and the transfer counter stay, so every other action goes on or fails as it did. -/
theorem stepAct_offFraming {a : Act} (ha : writesFrameLine a = false) (s : State) :
    stepAct a (offFraming s) = mapFlow offFraming (stepAct a s) := by
  have happly := offFraming_applyAct_of_not_writes ha s
  have hout : outcomeAt (offFraming s) (offFraming s).xfers = outcomeAt s s.xfers := rfl
  rcases stepAct_cases a s with ⟨hrun, hok⟩ | ⟨b, rfl, hfail, hrun⟩
  · rw [hrun, mapFlow, happly]
    rcases stepAct_cases a (offFraming s) with ⟨hrun', -⟩ | ⟨b, rfl, hfail, -⟩
    · exact hrun'
    · exact nomatch (hok b rfl).symm.trans (hout.symm.trans hfail)
  · rw [hrun, mapFlow, stepAct, hout, hfail]
    exact congrArg (Flow.raised .busError ∘ setFault) happly.symm

theorem runActs_offFraming (acts : List Act) (s : State) :
    runActs (offFrameActs acts) (offFraming s) = mapFlow offFraming (runActs acts s) := by
  induction acts generalizing s with
  | nil => rfl
  | cons a rest ih =>
    cases ha : writesFrameLine a with
    | true =>
      rw [offFrameActs_cons_of_writes ha, runActs_cons, stepAct_of_writes ha, ← offFraming_applyAct_of_writes ha]
      exact ih _
    | false =>
      rw [offFrameActs_cons_of_not_writes ha, runActs_cons, runActs_cons, stepAct_offFraming ha]
      cases stepAct a s with
      | running t => exact ih t
      | raised st t => rfl

theorem drive_offFraming {acts : List Act} {s t : State} (h : drive acts s = .next t) :
    drive (offFrameActs acts) (offFraming s) = .next (offFraming t) := by
  rw [drive, runActs_offFraming]
  rw [drive] at h
  cases hr : runActs acts s with
  | running u | raised st u =>
    rw [hr] at h
    obtain rfl := Host.Outcome.next.inj h
    rfl

/-! O55. -/

/-- The state whose run has another value of STREAM_FRAMING. -/
def reframedState (f : StreamFraming) (s : State) : State := { s with params := reframed f s.params }

/-- CONFIG reads of the parameters its presets only. -/
theorem offFraming_of_config {c : ConfigFields} {s t t' : State} {f : StreamFraming} (ht : exec (.config c) s = .next t)
    (ht' : exec (.config c) (reframedState f s) = .next t') : offFraming t' = offFraming t := by
  by_cases hl : LacksLine c
  · rw [exec_config_of_lacksLine _ hl] at ht ht'
    cases ht; cases ht'; rfl
  · by_cases hz : ZeroSize c
    · rw [exec_config_of_zeroSize _ hl hz] at ht ht'
      cases ht; cases ht'; rfl
    · have hsame : configOrigin (reframedState f s).params c = configOrigin s.params c := rfl
      cases ho : configOrigin s.params c with
      | none =>
        rw [exec_config_of_no_origin hl hz ho] at ht
        rw [exec_config_of_no_origin hl hz (hsame.trans ho)] at ht'
        cases ht; cases ht'; rfl
      | some o =>
        rw [exec_config_of_origin hl hz ho] at ht
        rw [exec_config_of_origin hl hz (hsame.trans ho)] at ht'
        cases ht; cases ht'; rfl

/-- The two runs of an instruction end alike but for the framing. -/
theorem offFraming_exec {i : Instr} {s t t' : State} {f : StreamFraming} (ht : exec i s = .next t)
    (ht' : exec i (reframedState f s) = .next t') : offFraming t' = offFraming t := by
  by_cases ha : ∃ d acts, s.device = some d ∧ actsOf s.params d i = some acts
  · obtain ⟨d, acts, hd, ha⟩ := ha
    obtain ⟨acts', ha', hsame⟩ : ∃ acts', actsOf (reframed f s.params) d i = some acts' ∧
        offFrameActs acts' = offFrameActs acts := by
      rw [← Option.map_eq_some_iff, offFrameActs_actsOf_reframed, ha]
      rfl
    have hx := drive_offFraming ((exec_of_acts hd ha).symm.trans ht)
    have hx' := drive_offFraming ((exec_of_acts (s := reframedState f s) hd ha').symm.trans ht')
    rw [hsame] at hx'
    exact Host.Outcome.next.inj (hx'.symm.trans hx)
  · by_cases hc : ∃ c, i = .config c
    · obtain ⟨c, rfl⟩ := hc
      exact offFraming_of_config ht ht'
    · have hno : ∀ d, s.device = some d → actsOf s.params d i = none := fun d hd =>
        Option.eq_none_iff_forall_ne_some.2 fun acts e => ha ⟨d, acts, hd, e⟩
      obtain ⟨st, v, -, hx⟩ := answers_of_no_acts (fun c e => hc ⟨c, e⟩) hno
      obtain rfl := Host.Outcome.next.inj ((hx s rfl).symm.trans ht)
      obtain rfl := Host.Outcome.next.inj ((hx (reframedState f s) rfl).symm.trans ht')
      rfl

theorem exec_keeps_params {i : Instr} {s t : State} (ht : exec i s = .next t) : t.params = s.params := by
  obtain ⟨u, r, hu, -, -, -, -, -, -, -, -, -, hpar, -⟩ := exec_completesOne i s
  obtain rfl := Host.Outcome.next.inj (hu.symm.trans ht)
  exact hpar

theorem exec_extends_trace {i : Instr} {s t : State} (ht : exec i s = .next t) : ∃ evs, t.trace = s.trace ++ evs := by
  obtain ⟨_, _, evs, _, hrun⟩ := exec_fixed_by_inputs i s
  obtain ⟨u, hu, -, -, htr, -⟩ := hrun s (.refl s)
  obtain rfl := Host.Outcome.next.inj (hu.symm.trans ht)
  exact ⟨evs, htr⟩

/-- What two states may differ in that are alike but for the framing. -/
theorem eq_of_offFraming {t t' : State} {p : Params} (h : offFraming t' = offFraming t) (hp : t'.params = p) :
    t' = { t with params := p, trace := t'.trace, lCs := t'.lCs, lDc := t'.lDc } := by
  subst hp
  cases t
  cases t'
  simp_all [offFraming]

/-- Settles O55: the runs agree without the frame's line writes, and each keeps its parameters. -/
theorem framingIndependent : Obligations.FramingIndependent := by
  intro i s t t' f ht ht'
  have hsame := offFraming_exec ht ht'
  obtain ⟨evs, htr⟩ := exec_extends_trace ht
  obtain ⟨evs', htr'⟩ := exec_extends_trace ht'
  refine ⟨eq_of_offFraming hsame (exec_keeps_params ht'), evs, evs', htr, htr', ?_⟩
  have hoff : offFrame t'.trace = offFrame t.trace := congrArg State.trace hsame
  rw [htr, htr', offFrame_append, offFrame_append] at hoff
  exact List.append_cancel_left hoff

end Sys2Proof
end

section
/-! The step without a request to run, the requests that only answer, and the bytes of every record
(30_encoding.md R117, 60_exceptions.md R261 to R264). -/

namespace Sys2Proof

open Machine

/-! The step and the reset state. -/

/-- Settles O1: the nine words, each decoded. -/
theorem specWords : Obligations.SpecWords := ⟨rfl, rfl, rfl, rfl, rfl, rfl, rfl, rfl, rfl⟩

/-- Settles O9: a rejected descriptor is answered, nothing more. -/
theorem stepIllegal : Obligations.StepIllegal := fun _ _ _ hb hp hd => step_of_rejects hb hp hd

theorem step_of_busy {s : State} (h : s.busy = true) : step s = .next s := if_pos h

theorem step_of_no_request {s : State} (hb : s.busy = false) (hp : presented s = none) : step s = .next s := by
  simp [step, hb, hp]

/-- Settles O10: a busy port takes nothing, and past the end of the list nothing is presented. -/
theorem stepWaits : Obligations.StepWaits :=
  ⟨fun _ h => step_of_busy h, fun _ hb hlen => step_of_no_request hb (List.getElem?_eq_none hlen)⟩

/-- Settles O58: after reset there is no Device, no record and no event, and no register has a value. -/
theorem resetInv : Obligations.ResetInv := by
  refine ⟨⟨rfl, rfl, rfl, rfl, rfl, rfl, rfl, nofun, ?_, nofun, nofun, nofun, nofun, nofun, nofun⟩,
    rfl, rfl, rfl, rfl, rfl, rfl, rfl, rfl, rfl, rfl, rfl⟩
  simp [State.reset]

/-! Answers. -/

/-- Settles O12: a request that needs a Device finds none. -/
theorem notConstructed : Obligations.NotConstructed := fun _ _ hn hd => exec_of_no_device hn hd

/-- Settles O15: the width is checked first, then the room. -/
theorem expandBadOperand : Obligations.ExpandBadOperand := by
  intro s width fg bg olen src h
  change execExpbmp width fg bg olen src s = _
  by_cases hw : sext16 width < 1
  · rw [execExpbmp, if_pos hw]
    rfl
  · obtain ⟨-, hroom⟩ := h.resolve_left hw
    have hsmall : olen.toNat < expandNeed (sext16 width).toNat src.length := hroom
    rw [execExpbmp, if_neg hw, if_pos hsmall]
    rfl

theorem exec_rotate_of_fixed {s : State} {d : Device} (n : Half) (hd : s.device = some d) (hr : d.rotCap = false) :
    exec (.rotate n) s = .next (recorded s .illegalRequest .empty) := by
  rw [exec_rotate, withDevice_some hd]
  exact whenRotCapable_false hr

theorem exec_getrot_of_fixed {s : State} {d : Device} (hd : s.device = some d) (hr : d.rotCap = false) :
    exec .getrot s = .next (recorded s .illegalRequest .empty) := by
  rw [exec_getrot, withDevice_some hd]
  exact whenRotCapable_false hr

theorem exec_getrot_of_capable {s : State} {d : Device} (hd : s.device = some d) (hr : d.rotCap = true) :
    exec .getrot s = .next (recorded s .ok (.rotation d.rotation)) := by
  rw [exec_getrot, withDevice_some hd]
  exact whenRotCapable_true hr

/-- Settles O47: the fixed-rotation variant knows neither request. -/
theorem rotationVariantOnly : Obligations.RotationVariantOnly :=
  fun _ _ n hd hr => ⟨exec_rotate_of_fixed n hd hr, exec_getrot_of_fixed hd hr⟩

/-- Settles O51: GETDIM answers with the size. -/
theorem getdimReturns : Obligations.GetdimReturns := fun _ _ hd => withDevice_some hd

/-! Records. -/

/-- The four requests whose record has a value with status OK (10_state.md R37). -/
def returnsValue : Instr → Bool
  | .pack565 _ _ _ => true
  | .expbmp _ _ _ _ _ => true
  | .getrot => true
  | .getdim => true
  | _ => false

/-- The form of the value an instruction answers with status OK (10_state.md R37). -/
inductive IsValueOf : Instr → Value → Prop where
  | color {r g b : Byte} (c : Half) : IsValueOf (.pack565 r g b) (.color c)
  | rotation (n : BitVec 2) : IsValueOf .getrot (.rotation n)
  | dims (width height : Half) : IsValueOf .getdim (.dims width height)
  | expanded {width fg bg : Half} {olen : Quad} {src out : Bytes} (h : fitsLength out) :
    IsValueOf (.expbmp width fg bg olen src) (.expanded (BitVec.ofNat 32 out.length) out)
  | empty {i : Instr} (h : returnsValue i = false) : IsValueOf i .empty

/-- A record an instruction may produce. -/
def IsRecordOf (i : Instr) (r : Record) : Prop :=
  (r.status ≠ .ok → r.value = .empty) ∧ (r.status = .ok → IsValueOf i r.value)

theorem isRecordOf_error {i : Instr} {st : Status} (h : st ≠ .ok) : IsRecordOf i ⟨st, .empty⟩ :=
  ⟨fun _ => rfl, fun hok => absurd hok h⟩

theorem isRecordOf_ok {i : Instr} {v : Value} (h : IsValueOf i v) : IsRecordOf i ⟨.ok, v⟩ :=
  ⟨fun hne => absurd rfl hne, fun _ => h⟩

theorem isRecordOf_empty {i : Instr} (st : Status) (h : returnsValue i = false) : IsRecordOf i ⟨st, .empty⟩ :=
  ⟨fun _ => rfl, fun _ => .empty h⟩

/-- EXPBMP's record: the expansion has at most `olen` bytes, so its length fits the count (40_color_codec.md R132). -/
theorem expbmp_record (width fg bg : Half) (olen : Quad) (src : Bytes) (s : State) :
    ∃ st v, IsRecordOf (.expbmp width fg bg olen src) ⟨st, v⟩ ∧
      exec (.expbmp width fg bg olen src) s = .next (recorded s st v) := by
  by_cases hbad : width.toInt < 1 ∨ (1 ≤ width.toInt ∧ olen.toNat < expansionNeed width.toInt.toNat src.length)
  · exact ⟨.badOperand, .empty, isRecordOf_error (by decide), expandBadOperand s width fg bg olen src hbad⟩
  · have hw : 1 ≤ width.toInt := by omega
    have hroom : expansionNeed width.toInt.toNat src.length ≤ olen.toNat := by omega
    obtain ⟨hlen, hx⟩ := expandBitmap s width fg bg olen src hw hroom
    rw [← hlen] at hx hroom
    exact ⟨.ok, _, isRecordOf_ok (.expanded (hroom.trans_lt olen.isLt)), hx⟩

theorem getrot_record (s : State) :
    ∃ st v, IsRecordOf .getrot ⟨st, v⟩ ∧ exec .getrot s = .next (recorded s st v) := by
  cases hd : s.device with
  | none => exact ⟨.notConstructed, .empty, isRecordOf_error (by decide), exec_of_no_device rfl hd⟩
  | some d =>
    cases hr : d.rotCap with
    | false => exact ⟨.illegalRequest, .empty, isRecordOf_error (by decide), exec_getrot_of_fixed hd hr⟩
    | true => exact ⟨.ok, _, isRecordOf_ok (.rotation d.rotation), exec_getrot_of_capable hd hr⟩

theorem getdim_record (s : State) :
    ∃ st v, IsRecordOf .getdim ⟨st, v⟩ ∧ exec .getdim s = .next (recorded s st v) := by
  cases hd : s.device with
  | none => exact ⟨.notConstructed, .empty, isRecordOf_error (by decide), exec_of_no_device rfl hd⟩
  | some d => exact ⟨.ok, _, isRecordOf_ok (.dims d.width d.height), getdimReturns s d hd⟩

/-- Every other instruction but CONFIG produces a record without value: it drives actions, or fails. -/
theorem exec_record_empty {i : Instr} {s t : State} (hc : ∀ f, i ≠ .config f) (hv : returnsValue i = false)
    (ht : exec i s = .next t) : ∃ st, t.records = s.records ++ [⟨st, .empty⟩] := by
  have failed : ∀ st, exec i s = .next (recorded s st .empty) →
      ∃ st, t.records = s.records ++ [⟨st, .empty⟩] := by
    intro st hx
    obtain rfl := Host.Outcome.next.inj (hx.symm.trans ht)
    exact ⟨st, rfl⟩
  cases hd : s.device with
  | none =>
    refine failed .notConstructed (exec_of_no_device ?_ hd)
    cases i with
    | config f => exact absurd rfl (hc f)
    | pack565 | expbmp => cases hv
    | _ => rfl
  | some d =>
    cases ha : actsOf s.params d i with
    | some acts =>
      obtain ⟨done, st, -, hx⟩ := drive_eq_ended acts (latchesOf i) s
      obtain rfl := Host.Outcome.next.inj (((exec_of_acts hd ha).trans (hx s (.refl s))).symm.trans ht)
      obtain ⟨-, hrec, -⟩ := completed_ended done st .empty s
      exact ⟨st, hrec⟩
    | none =>
      cases i with
      | config f => exact absurd rfl (hc f)
      | pack565 | expbmp | getrot | getdim => cases hv
      | rotate n => exact failed .illegalRequest (exec_rotate_of_fixed n hd (by simpa [actsOf] using ha))
      | _ => cases ha

theorem exec_config_record {f : ConfigFields} {s t : State} (ht : exec (.config f) s = .next t) :
    ∃ st, t.records = s.records ++ [⟨st, .empty⟩] := by
  rcases execConfig_cases f s with ⟨st, -, hx⟩ | ⟨o, -, -, -, hx⟩
  · obtain rfl := Host.Outcome.next.inj (hx.symm.trans ht)
    exact ⟨st, rfl⟩
  · obtain rfl := Host.Outcome.next.inj (hx.symm.trans ht)
    exact ⟨.ok, rfl⟩

/-- The record of every instruction. -/
theorem exec_record {i : Instr} {s t : State} (ht : exec i s = .next t) :
    ∃ r, t.records = s.records ++ [r] ∧ IsRecordOf i r := by
  have answered : (∃ st v, IsRecordOf i ⟨st, v⟩ ∧ exec i s = .next (recorded s st v)) →
      ∃ r, t.records = s.records ++ [r] ∧ IsRecordOf i r := by
    rintro ⟨st, v, hr, hx⟩
    obtain rfl := Host.Outcome.next.inj (hx.symm.trans ht)
    exact ⟨⟨st, v⟩, rfl, hr⟩
  cases hv : returnsValue i with
  | false =>
    obtain ⟨st, hrec⟩ : ∃ st, t.records = s.records ++ [⟨st, .empty⟩] := by
      by_cases hc : ∃ f, i = .config f
      · obtain ⟨f, rfl⟩ := hc
        exact exec_config_record ht
      · exact exec_record_empty (fun f e => hc ⟨f, e⟩) hv ht
    exact ⟨_, hrec, isRecordOf_empty st hv⟩
  | true =>
    cases i with
    | pack565 r g b => exact answered ⟨.ok, _, isRecordOf_ok (.color _), rfl⟩
    | expbmp width fg bg olen src => exact answered (expbmp_record width fg bg olen src s)
    | getrot => exact answered (getrot_record s)
    | getdim => exact answered (getdim_record s)
    | _ => cases hv

theorem beValue_be32 (v : Quad) : beValue (be32 v) = v.toNat :=
  (toNat_quad _ _ _ _).symm.trans (congrArg BitVec.toNat (quad_be32 v))

/-- Settles O60: the bytes of each form of a record. -/
theorem recordBytes : Obligations.RecordBytes := by
  refine ⟨rfl, fun i s t ht => ?_⟩
  obtain ⟨⟨st, v⟩, hrec, herror, hok⟩ := exec_record ht
  refine ⟨⟨st, v⟩, hrec, fun hne => ?_, ?_⟩
  · obtain rfl : v = .empty := herror hne
    rfl
  · rintro rfl
    cases hok rfl with
    | color c => exact ⟨c, rfl, by rw [← be16_eq_be16Z]; rfl⟩
    | rotation n => exact ⟨n, rfl, by rw [BitVec.ofNat_toNat]; rfl⟩
    | dims w h => exact ⟨w, h, rfl, by rw [← be16_eq_be16Z, ← be16_eq_be16Z]; rfl⟩
    | @expanded _ _ _ _ _ out hfits =>
      refine ⟨_, out, _, rfl, rfl, rfl, ?_⟩
      rw [beValue_be32, BitVec.toNat_ofNat, Nat.mod_eq_of_lt hfits]
    | empty hv =>
      cases i with
      | pack565 | expbmp | getrot | getdim => cases hv
      | _ => rfl

end Sys2Proof
end

section
/-! Frames and the lifecycle requests made of them (41_command_framing.md, 45_lifecycle.md). A request whose actions are
one frame, after actions that emit nothing, stops right after the transfer of the frame that fails (R144): SEND, SRESET
and ROTATE are such requests. INIT's ten steps come last. -/

namespace Sys2Proof

open Machine

/-- The instruction ends with BUS_ERROR, having emitted `evs`, the Device and the ghosts as they are in `u`. -/
def AbortsAs (i : Instr) (s u : State) (evs : List Event) : Prop :=
  ∃ t, exec i s = .next t ∧ Aborted s t evs ∧ t.device = u.device ∧ KeepsGhosts u t

/-- What is performed up to the first transfer that fails. -/
theorem abortsAs_of_fail {i : Instr} {s : State} {d : Device} {pre body after : List Act} {b : Bytes}
    (hd : s.device = some d) (ha : actsOf s.params d i = some (pre ++ body ++ .xfer b :: after))
    (hpre : eventsOf pre = []) (hq : Quiet body) (hok : BusOk s (xferCount (eventsOf body)))
    (hfail : outcomeAt s (s.xfers + xferCount (eventsOf body)) = .fail) :
    AbortsAs i s (applyActs pre s) (eventsOf body ++ [Event.xfer b]) := by
  have hbefore : eventsOf (pre ++ body) = eventsOf body := by rw [eventsOf_append, hpre, List.nil_append]
  have hdone : eventsOf (pre ++ body ++ [Act.xfer b]) = eventsOf body ++ [Event.xfer b] := by
    rw [eventsOf_append, hbefore]
    rfl
  have hquiet : Quiet (body ++ [Act.xfer b]) := quiet_append hq rfl
  have hx : exec i s = .next (ended (pre ++ body ++ [Act.xfer b]) .busError .empty s) := by
    rw [← hbefore] at hok hfail
    rw [exec_of_acts hd ha, drive_of_fail (busOk_acceptRequest.2 hok) hfail, applyActs_acceptRequest]
    rfl
  refine ⟨_, hx, ⟨hdone ▸ completed_ended _ _ _ s, (ended_fault_iff ..).2 (.inr rfl)⟩, ?_, ?_⟩
  · rw [ended_device, List.append_assoc, applyActs_append]
    exact applyActs_device_of_quiet _ _ hquiet
  · rw [KeepsGhosts, ended_gLife, ended_gSleep, ended_gDisp, List.append_assoc, applyActs_append]
    exact applyActs_keepsGhosts (ghostFree_of_quiet hquiet) _

/-- What a frame performs before the transfer of its command byte. -/
def beforeCommand (d : Device) : List Act := csActs d .low ++ ([.dc .cmd] : List Act)

/-- What a frame performs before the transfer of its data. -/
def beforeData (d : Device) (cmd : Option Byte) : List Act := csActs d .low ++ cmdActs cmd ++ ([.dc .data] : List Act)

theorem quiet_beforeCommand (d : Device) : Quiet (beforeCommand d) :=
  quiet_append (b := [.dc .cmd]) (quiet_csActs d .low) rfl

theorem quiet_beforeData (d : Device) (cmd : Option Byte) : Quiet (beforeData d cmd) := by
  refine quiet_append (b := [.dc .data]) (quiet_append (quiet_csActs d .low) ?_) rfl
  cases cmd <;> rfl

theorem eventsOf_beforeCommand (d : Device) :
    eventsOf (beforeCommand d) = ifLine d.hasCs (.cs .low) ++ ([.dc .cmd] : List Event) := by
  rw [beforeCommand, eventsOf_append, eventsOf_csActs]
  rfl

theorem eventsOf_beforeData (d : Device) (cmd : Option Byte) :
    eventsOf (beforeData d cmd) = ifLine d.hasCs (.cs .low) ++ commandEvents cmd ++ ([.dc .data] : List Event) := by
  rw [beforeData, eventsOf_append, eventsOf_append, eventsOf_csActs]
  cases cmd <;> rfl

theorem xferCount_beforeCommand (d : Device) : xferCount (eventsOf (beforeCommand d)) = 0 := by
  rw [eventsOf_beforeCommand]
  cases d.hasCs <;> rfl

theorem xferCount_beforeData (d : Device) (cmd : Option Byte) :
    xferCount (eventsOf (beforeData d cmd)) = xferCount (commandEvents cmd) := by
  rw [eventsOf_beforeData]
  cases d.hasCs <;> cases cmd <;> rfl

theorem frameActs_eq_command (d : Device) (c : Byte) (data : Bytes) :
    frameActs d (some c) data = beforeCommand d ++ .xfer [c] :: (dataActs data ++ csActs d .high) := by
  simp [frameActs, beforeCommand, cmdActs]

theorem frameActs_eq_data (d : Device) (cmd : Option Byte) {data : Bytes} (h : data ≠ []) :
    frameActs d cmd data = beforeData d cmd ++ .xfer data :: csActs d .high := by
  cases data with
  | nil => exact absurd rfl h
  | cons b rest => simp [frameActs, beforeData, dataActs]

section
variable {i : Instr} {s : State} {d : Device} {pre post : List Act} {data : Bytes}

/-- The command byte's transfer fails. -/
theorem abortsAs_at_command {c : Byte} (hd : s.device = some d)
    (ha : actsOf s.params d i = some (pre ++ frameActs d (some c) data ++ post)) (hpre : eventsOf pre = [])
    (hfail : outcomeAt s s.xfers = .fail) :
    AbortsAs i s (applyActs pre s) (ifLine d.hasCs (.cs .low) ++ ([.dc .cmd, .xfer [c]] : List Event)) := by
  rw [frameActs_eq_command, ← List.append_assoc pre, List.append_assoc, List.cons_append] at ha
  have hcount := xferCount_beforeCommand d
  have habort := abortsAs_of_fail hd ha hpre (quiet_beforeCommand d) (busOk_of_no_xfer s hcount) (by rwa [hcount])
  rwa [eventsOf_beforeCommand, List.append_assoc] at habort

/-- The data's transfer fails, that of the command byte, if there is one, having succeeded. -/
theorem abortsAs_at_data {cmd : Option Byte} (hd : s.device = some d)
    (ha : actsOf s.params d i = some (pre ++ frameActs d cmd data ++ post)) (hpre : eventsOf pre = [])
    (hdata : data ≠ []) (hok : BusOk s (xferCount (commandEvents cmd)))
    (hfail : outcomeAt s (s.xfers + xferCount (commandEvents cmd)) = .fail) :
    AbortsAs i s (applyActs pre s)
      (ifLine d.hasCs (.cs .low) ++ (commandEvents cmd ++ ([.dc .data, .xfer data] : List Event))) := by
  rw [frameActs_eq_data d cmd hdata, ← List.append_assoc pre, List.append_assoc, List.cons_append] at ha
  have hcount := xferCount_beforeData d cmd
  have habort := abortsAs_of_fail hd ha hpre (quiet_beforeData d cmd) (by rwa [hcount]) (by rwa [hcount])
  rwa [eventsOf_beforeData, List.append_assoc, List.append_assoc] at habort

end

theorem busOk_one {s : State} (h : outcomeAt s s.xfers = .ok) : BusOk s 1 := by
  intro k hk
  obtain rfl : k = 0 := by omega
  exact h

/-- Settles O20: SEND's actions are one frame, and its ghost writes come after it. -/
theorem sendAborts : Obligations.SendAborts := by
  intro s d data hd
  refine ⟨fun c hfail => ?_, fun c hne hok hfail => ?_, fun hne hfail => ?_⟩
  · exact abortsAs_at_command (pre := []) hd rfl rfl hfail
  · exact abortsAs_at_data (pre := []) (cmd := some c) hd rfl rfl hne (busOk_one hok) hfail
  · exact abortsAs_at_data (pre := []) (cmd := none) hd rfl rfl hne (busOk_of_no_xfer s rfl) hfail

/-! Software reset. -/

theorem eventsOf_sresetActs (d : Device) :
    eventsOf (sresetActs d) = sendEvents d.hasCs (some 0x01) [] ++ ([.delay 150] : List Event) := by
  rw [sresetActs, eventsOf_append, eventsOf_append, eventsOf_append, eventsOf_frameActs]
  exact List.append_nil _

theorem applyActs_sresetActs (d : Device) (s : State) :
    (applyActs (sresetActs d) s).device = s.device ∧
      (applyActs (sresetActs d) s).gLife = some .resetting ∧
      (applyActs (sresetActs d) s).gSleep = some .asleep ∧
      (applyActs (sresetActs d) s).gDisp = some .displayOff := by
  have hbody : sresetActs d =
      [Act.life .resetting] ++ (frameActs d (some cmdSwreset) [] ++ [Act.delay tSwreset]) ++ panelResetActs := rfl
  rw [hbody]
  exact applyActs_panelReset (quiet_append (b := [.delay tSwreset]) (quiet_frameActs d _ _) rfl) s

/-- Settles O42: between SRESET's ghost writes are a frame and a delay. -/
theorem sresetSends : Obligations.SresetSends := by
  intro s d hd
  refine ⟨decode_encode (i := .sreset) rfl rfl, fun hok => ?_, fun hfail => ?_⟩
  · have hcount : xferCount (eventsOf (sresetActs d)) = 1 := by
      rw [eventsOf_sresetActs, xferCount_append, xferCount_sendEvents]
      rfl
    have hrun := (exec_of_acts (i := .sreset) hd rfl).trans (drive_of_busOk _ _ (hcount ▸ busOk_one hok))
    have hdone := eventsOf_sresetActs d ▸ completed_applyActs (sresetActs d) s (latchesOf .sreset)
    obtain ⟨hdev, hghosts⟩ := applyActs_sresetActs d (acceptRequest (latchesOf .sreset) s)
    exact ⟨_, hrun, hdone, ⟨hdev, applyActs_fault _ _⟩, hghosts⟩
  · exact abortsAs_at_command (pre := [.life .resetting]) hd (congrArg some (List.append_assoc _ _ _)) rfl hfail

/-! Inversion. -/

/-- Settles O45: neither command byte is one R146 names. -/
theorem invertSends : Obligations.InvertSends := fun _ _ hd hb =>
  ⟨sends_of_sendActs (cmd := some 0x21) (data := []) hd rfl hb,
    sends_of_sendActs (cmd := some 0x20) (data := []) hd rfl hb⟩

/-! Rotation. -/

theorem actsOf_rotate {d : Device} (p : Params) (n : Half) (hr : d.rotCap = true) :
    actsOf p d (.rotate n) = some (rotateActs d p n.toInt) := if_pos hr

theorem rotateActs_of_out_of_range {n : Int} (d : Device) (p : Params) (h : n < 0 ∨ 3 < n) : rotateActs d p n = [] :=
  if_neg (by omega)

/-- The parity of a rotation is its low bit (45_lifecycle.md R247). -/
theorem rotateDevice_ofInt {n : Int} (d : Device) (h0 : 0 ≤ n) (h3 : n ≤ 3) :
    rotateDevice d (BitVec.ofInt 2 n) = rotated d n := by
  have hn : (BitVec.ofInt 2 n).toNat = n.toNat := by
    rw [BitVec.toNat_ofInt]
    omega
  have hparity : (BitVec.ofInt 2 n).getLsbD 0 = d.rotation.getLsbD 0 ↔ n % 2 = (d.rotation.toNat : Int) % 2 := by
    rw [BitVec.getLsbD, BitVec.getLsbD, Nat.testBit_zero, Nat.testBit_zero, hn, decide_eq_decide]
    omega
  simp only [rotateDevice, rotated, hparity]

theorem madctlByte_ofInt {n : Int} (p : Params) (h0 : 0 ≤ n) (h3 : n ≤ 3) :
    madctlByte p (BitVec.ofInt 2 n) = rotationByte p n := by
  interval_cases n <;> rfl

/-- ROTATE in range: the register write, then the frame, which writes no ghost. -/
theorem rotateActs_of_range {n : Int} (d : Device) (p : Params) (h0 : 0 ≤ n) (h3 : n ≤ 3) :
    rotateActs d p n = ([.device (rotated d n)] : List Act) ++ frameActs d (some 0x36) [rotationByte p n] ++ [] := by
  rw [rotateActs, if_pos ⟨h0, h3⟩, rotateDevice_ofInt d h0 h3, madctlByte_ofInt p h0 h3]
  rfl

theorem eventsOf_rotateActs {n : Int} (d : Device) (p : Params) (h0 : 0 ≤ n) (h3 : n ≤ 3) :
    eventsOf (rotateActs d p n) = rotateEvents d p n := by
  rw [rotateActs_of_range d p h0 h3, List.append_nil, eventsOf_append, eventsOf_frameActs]
  rfl

theorem applyActs_rotateActs_device {n : Int} (d : Device) (p : Params) (s : State) (h0 : 0 ≤ n) (h3 : n ≤ 3) :
    (applyActs (rotateActs d p n) s).device = some (rotated d n) := by
  rw [rotateActs_of_range d p h0 h3, List.append_nil, applyActs_append]
  exact applyActs_device_of_quiet _ _ (quiet_frameActs d _ _)

/-- Settles O48: ROTATE's frame comes after its register write, so every end of the frame leaves the Device rotated. -/
theorem rotateSets : Obligations.RotateSets := by
  intro s d n hd hr h0 h3
  have ha := actsOf_rotate s.params n hr
  have hacts := rotateActs_of_range d s.params h0 h3
  refine ⟨fun hb => ?_, fun hfail => ?_, fun hok hfail => ?_⟩
  · have hev := eventsOf_rotateActs d s.params h0 h3
    have hbus : BusOk s (xferCount (eventsOf (rotateActs d s.params n.toInt))) := by
      rw [hev, rotateEvents, xferCount_sendEvents]
      exact hb
    refine ⟨_, (exec_of_acts hd ha).trans (drive_of_busOk _ _ hbus), hev ▸ completed_applyActs _ s _, ?_, ?_, ?_⟩
    · exact applyActs_rotateActs_device d _ _ h0 h3
    · exact applyActs_fault _ _
    · exact applyActs_keepsGhosts (ghostFree_rotateActs d _ _) _
  · exact abortsAs_at_command (pre := [.device (rotated d n.toInt)]) hd (ha.trans (congrArg some hacts)) rfl hfail
  · exact abortsAs_at_data (pre := [.device (rotated d n.toInt)]) hd (ha.trans (congrArg some hacts)) rfl (by simp)
      (busOk_one hok) hfail

theorem exec_of_no_action {i : Instr} {s : State} {d : Device} (hd : s.device = some d)
    (ha : actsOf s.params d i = some []) : exec i s = .next (recorded s .ok .empty) :=
  exec_of_acts hd ha

/-- Settles O49: out of range ROTATE has no action. -/
theorem rotateIgnored : Obligations.RotateIgnored := fun s d n hd hr h =>
  exec_of_no_action hd ((actsOf_rotate s.params n hr).trans (congrArg some (rotateActs_of_out_of_range d _ h)))

/-! Bring-up. -/

/-- Step 10 of R240 (45_lifecycle.md R241 d): a requested rotation that is not 1, 2 or 3 sends nothing. -/
theorem initRotateActs_eq (d : Device) (p : Params) :
    initRotateActs d p = if InitRotates d then rotateActs d p d.rotReq.toInt else [] := by
  have hzero : d.rotReq = 0 ↔ d.rotReq.toInt = 0 := by
    rw [← BitVec.toInt_inj]
    rfl
  unfold initRotateActs
  by_cases hr : d.rotCap = true ∧ d.rotReq ≠ 0
  · rw [if_pos hr]
    split
    · rfl
    · rename_i hn
      obtain ⟨hcap, hne⟩ := hr
      refine rotateActs_of_out_of_range d p ?_
      have : ¬(0 < d.rotReq.toInt ∧ d.rotReq.toInt ≤ 3) := fun h => hn ⟨hcap, h⟩
      have : d.rotReq.toInt ≠ 0 := fun h => hne (hzero.2 h)
      rw [sext16]
      omega
  · rw [if_neg hr, if_neg]
    rintro ⟨hcap, hpos, -⟩
    exact hr ⟨hcap, fun h => by rw [hzero.1 h] at hpos; exact absurd hpos (by decide)⟩

theorem eventsOf_initRotateActs (d : Device) (p : Params) :
    eventsOf (initRotateActs d p) = if InitRotates d then rotateEvents d p d.rotReq.toInt else [] := by
  rw [initRotateActs_eq]
  split
  · rename_i h
    exact eventsOf_rotateActs d p h.2.1.le h.2.2
  · rfl

theorem applyActs_initRotateActs_device {s : State} {d : Device} (p : Params) (hd : s.device = some d) :
    (applyActs (initRotateActs d p) s).device = some (if InitRotates d then rotated d d.rotReq.toInt else d) := by
  rw [initRotateActs_eq]
  split
  · rename_i h
    exact applyActs_rotateActs_device d p s h.2.1.le h.2.2
  · exact hd

theorem ghostFree_initRotateActs (d : Device) (p : Params) : GhostFree (initRotateActs d p) := by
  rw [initRotateActs_eq]
  split
  · exact ghostFree_rotateActs d p _
  · exact fun _ h => nomatch h

theorem eventsOf_initActs (d : Device) (p : Params) : eventsOf (initActs d p) = initEvents d p := by
  simp only [initActs, eventsOf_append, eventsOf_cons, eventsOf_hresetActs, eventsOf_sresetActs, slpoutActs, colmodActs,
    madctlActs, invonActs, noronActs, disponActs, eventsOf_sendActs, eventsOf_frectActs, eventsOf_initRotateActs]
  exact List.append_nil _

/-- What INIT does between sleep-out and display-on (steps 4 to 8 of R240). -/
def initSetupActs (d : Device) (p : Params) : List Act :=
  (colmodActs d p.colmodData ++ [Act.delay tColmod]) ++ madctlActs d p.madctlInit ++
    (invonActs d ++ [Act.delay tInvon]) ++ (noronActs d ++ [Act.delay tNoron]) ++
    frectActs d p 0 0 (zext16 d.width) (zext16 d.height) black

theorem quiet_initSetupActs (d : Device) (p : Params) : Quiet (initSetupActs d p) := by
  have hdelay : ∀ ms, Quiet [Act.delay ms] := fun _ => rfl
  have hcolmod : Quiet (colmodActs d p.colmodData) := quiet_sendActs d _ _ (by decide) (by decide)
  have hmadctl : Quiet (madctlActs d p.madctlInit) := quiet_sendActs d _ _ (by decide) (by decide)
  have hinvon : Quiet (invonActs d) := quiet_sendActs d _ _ (by decide) (by decide)
  have hnoron : Quiet (noronActs d) := quiet_sendActs d _ _ (by decide) (by decide)
  exact quiet_append (quiet_append (quiet_append (quiet_append (quiet_append hcolmod (hdelay _)) hmadctl)
    (quiet_append hinvon (hdelay _))) (quiet_append hnoron (hdelay _))) (quiet_frectActs ..)

theorem initActs_eq_setup (d : Device) (p : Params) :
    initActs d p = hresetActs d ++ sresetActs d ++ (.life .initializing :: slpoutActs d) ++ initSetupActs d p ++
      (disponActs d ++ [Act.delay tDispon]) ++ initRotateActs d p ++ [Act.life .ready] := by
  simp only [initActs, initSetupActs, List.append_assoc]

/-- What INIT leaves of the Device and the ghosts (45_lifecycle.md R240, R241). -/
theorem applyActs_initActs {s : State} {d : Device} (p : Params) (hd : s.device = some d) :
    (applyActs (initActs d p) s).device = some (if InitRotates d then rotated d d.rotReq.toInt else d) ∧
      (applyActs (initActs d p) s).gLife = some .ready ∧
      (applyActs (initActs d p) s).gSleep = some .awake ∧
      (applyActs (initActs d p) s).gDisp = some .displayOn := by
  have hsetup : ∀ u, (applyActs (initSetupActs d p) u).device = u.device ∧
      (applyActs (initSetupActs d p) u).gSleep = u.gSleep := fun u =>
    ⟨applyActs_device_of_quiet _ u (quiet_initSetupActs d p),
      applyActs_gSleep_of_quiet _ u (quiet_initSetupActs d p)⟩
  have hrotate : ∀ u, (applyActs (initRotateActs d p) u).gSleep = u.gSleep ∧
      (applyActs (initRotateActs d p) u).gDisp = u.gDisp := fun u =>
    (applyActs_keepsGhosts (ghostFree_initRotateActs d p) u).2
  rw [initActs_eq_setup, applyActs_append, applyActs_append]
  refine ⟨applyActs_initRotateActs_device p ?_, rfl, ?_, ?_⟩
  · simp only [applyActs_append, applyActs_cons, applyActs_nil, applyAct, disponActs, slpoutActs,
      applyActs_sendActs_device, hsetup, applyActs_sresetActs, applyActs_hresetActs, hd]
  · simp only [applyActs_append, applyActs_cons, applyActs_nil, applyAct, disponActs, slpoutActs,
      applyActs_sendActs_ghosts, hsetup, hrotate]
    rfl
  · simp only [applyActs_append, applyActs_cons, applyActs_nil, applyAct, disponActs, applyActs_sendActs_ghosts,
      hrotate]
    rfl

/-- Settles O43: INIT's actions emit the ten steps, and leave the panel ready. -/
theorem initSequence : Obligations.InitSequence := by
  intro s d hd hb
  have hev := eventsOf_initActs d s.params
  rw [← hev] at hb
  have hrun := (exec_of_acts (i := .init) hd rfl).trans (drive_of_busOk _ _ (busOk_acceptRequest.2 hb))
  have hdone := completed_applyActs (initActs d s.params) s (latchesOf .init)
  have hfault := applyActs_fault (initActs d s.params) (acceptRequest (latchesOf .init) s)
  have hleft := applyActs_initActs (s := acceptRequest (latchesOf .init) s) s.params hd
  rw [hev] at hdone
  generalize applyActs (initActs d s.params) (acceptRequest (latchesOf .init) s) = u at hrun hdone hfault hleft
  obtain ⟨hdev, hghosts⟩ := hleft
  exact ⟨_, hrun, hdone, hdev, hfault, hghosts⟩

end Sys2Proof
end

section
/-! Drawing (42_window_manager.md, 43_pixel_streamer.md, 44_rasterizer.md): SETWIN, SFILL, BLIT and the rasterizer's
requests but for the geometry of LINE. Each draws the events of its quiet actions; after a run without bus failure, all
of them. -/

namespace Sys2Proof

open Machine

/-- An instruction that set no FAULT performed all its actions. -/
theorem completed_of_no_fault {i : Instr} {s t : State} {d : Device} {acts : List Act} {evs : List Event}
    (hd : s.device = some d) (ha : actsOf s.params d i = some acts) (hev : eventsOf acts = evs)
    (ht : exec i s = .next t) (hf : t.fault = false) : Completed s t evs .ok .empty := by
  subst hev
  obtain ⟨hdone, -⟩ := drive_of_no_fault ((exec_of_acts hd ha).symm.trans ht) hf
  exact hdone

/-! Windows. -/

theorem setwinEvents_of_windowOk {d : Device} {p : Params} {x0 y0 x1 y1 : Int} (h : WindowOk d p x0 y0 x1 y1) :
    setwinEvents d p x0 y0 x1 y1 = windowEvents d x0 y0 x1 y1 := if_pos h

theorem setwinActs_of_not_windowOk {d : Device} {p : Params} {x0 y0 x1 y1 : Int} (h : ¬WindowOk d p x0 y0 x1 y1) :
    setwinActs d p x0 y0 x1 y1 = [] := if_neg fun hv => h ((windowValid_iff ..).1 hv)

/-- The shape of a programmed window (42_window_manager.md R174). -/
theorem windowEvents_shape (d : Device) (x0 y0 x1 y1 : Int) :
    (windowEvents d x0 y0 x1 y1).length = (if d.hasCs then 16 else 10) ∧
      (transfersOf (windowEvents d x0 y0 x1 y1)).map List.length = [1, 4, 1, 4, 1] ∧
      commandBytes (windowEvents d x0 y0 x1 y1) = [[0x2A], [0x2B], [0x2C]] ∧
      lastDc (windowEvents d x0 y0 x1 y1) = some .cmd := by
  unfold windowEvents
  cases d.hasCs <;> exact ⟨rfl, rfl, rfl, rfl⟩

theorem xferCount_windowEvents (d : Device) (x0 y0 x1 y1 : Int) : xferCount (windowEvents d x0 y0 x1 y1) = 5 := by
  obtain ⟨-, hlen, -⟩ := windowEvents_shape d x0 y0 x1 y1
  simpa [xferCount] using congrArg List.length hlen

/-- Settles O22: an accepted window's actions emit its three frames, five transfers. -/
theorem setwinPrograms : Obligations.SetwinPrograms := fun _ _ _ _ _ _ hd hw hb =>
  draws_of_acts hd rfl (quiet_setwinActs ..) ((eventsOf_setwinActs ..).trans (setwinEvents_of_windowOk hw))
    (by rwa [xferCount_windowEvents])

/-- Settles O23: a window that fails a comparison leaves SETWIN no action. -/
theorem setwinIgnored : Obligations.SetwinIgnored := by
  intro s d x0 y0 x1 y1 hd h
  have hw : ¬WindowOk d s.params x0.toInt y0.toInt x1.toInt y1.toInt := by
    rintro ⟨hx, hxw, hy, hyh, hneg⟩
    rcases h with h | h | h | h | ⟨hpol, h⟩
    · omega
    · omega
    · omega
    · omega
    · have := hneg hpol
      omega
  exact exec_of_no_action hd (congrArg some (setwinActs_of_not_windowOk hw))

/-- Settles O24: without bus failure SETWIN emitted the whole window. -/
theorem setwinShape : Obligations.SetwinShape := by
  intro s t d x0 y0 x1 y1 evs hd _ hw ht hf htr
  obtain ⟨htr', -, -, -, -, hdc, -⟩ :=
    completed_of_no_fault hd rfl ((eventsOf_setwinActs ..).trans (setwinEvents_of_windowOk hw)) ht hf
  obtain rfl := List.append_cancel_left (htr'.symm.trans htr)
  obtain ⟨hlen, hxf, hcmd, hlast⟩ := windowEvents_shape d x0.toInt y0.toInt x1.toInt y1.toInt
  exact ⟨hlen, hxf, hcmd, by rw [hdc, hlast]; rfl⟩

/-! Streams. -/

/-- One transfer for each chunk, whatever the framing (43_pixel_streamer.md R192). -/
theorem xferCount_streamEvents (d : Device) (p : Params) (bytes : Bytes) :
    xferCount (streamEvents d p bytes) = (bytes.length + 255) / 256 := by
  rw [xferCount, transfersOf_streamEvents, chunksOf, List.length_map, List.length_range]

theorem length_pixelBytes (color : Half) (n : Nat) : (pixelBytes color n).length = 2 * n := by
  rw [pixelBytes, List.length_flatten, List.map_replicate, List.sum_replicate_nat, Nat.mul_comm]
  rfl

/-- Settles O26: SFILL drives the stream of the colour's pairs. -/
theorem sfillStreams : Obligations.SfillStreams := fun _ _ _ _ hd hb =>
  draws_of_acts hd rfl (quiet_sfillActs ..) (eventsOf_sfillActs ..) hb

/-- Settles O27: two bytes a pixel, 256 bytes a transfer. -/
theorem sfillTransfers : Obligations.SfillTransfers := by
  intro s t d color count hd _ ht hf
  obtain ⟨-, -, -, hxf, -⟩ := completed_of_no_fault hd rfl (eventsOf_sfillActs ..) ht hf
  rw [sfillEvents, xferCount_streamEvents, length_pixelBytes, sext32] at hxf
  split <;> omega

/-- Settles O28: BLIT drives its window and the stream of its bytes. -/
theorem blitStreams : Obligations.BlitStreams := by
  rintro s d x y w h buf _ hd rfl hb
  exact draws_of_acts hd rfl (quiet_blitActs ..) (eventsOf_blitActs ..) hb

/-- Settles O29: five transfers of the window, then the stream's. -/
theorem blitTransfers : Obligations.BlitTransfers := by
  intro s t d x y w h buf n hd _ hw hn ht hf
  obtain ⟨-, -, -, hxf, -⟩ := completed_of_no_fault hd rfl (eventsOf_blitActs ..) ht hf
  have hlen : min (min (buf.length : Int) (w.toInt * h.toInt * 2)).toNat buf.length = n := by omega
  simp only [sext16, setwinEvents_of_windowOk hw, xferCount_append, xferCount_windowEvents, xferCount_streamEvents,
    List.length_take, hlen] at hxf
  split <;> omega

/-! The rasterizer. -/

/-- Settles O31: HLINE drives its window and the fill of its run. -/
theorem hlineDraws : Obligations.HlineDraws := fun _ _ _ _ _ _ hd hb =>
  draws_of_acts hd rfl (quiet_hlineActs ..) (eventsOf_hlineActs ..) hb

/-- Settles O32: VLINE drives its window and the fill of its run. -/
theorem vlineDraws : Obligations.VlineDraws := fun _ _ _ _ _ _ hd hb =>
  draws_of_acts hd rfl (quiet_vlineActs ..) (eventsOf_vlineActs ..) hb

/-- Settles O33: LINE drives the actions of its calls. -/
theorem lineDraws : Obligations.LineDraws := by
  rintro s d x0 y0 x1 y1 color _ hd rfl hb
  exact draws_of_acts hd rfl (quiet_lineActs ..) (eventsOf_lineActs ..) hb

theorem eventsOf_rectActs (d : Device) (p : Params) (x y w h : Int) (color : Half) :
    eventsOf (rectActs d p x y w h color) =
      hlineEvents d p x y w color ++ vlineEvents d p x y h color ++ hlineEvents d p x (y + h - 1) w color ++
        vlineEvents d p (x + w - 1) y h color := by
  rw [rectActs, eventsOf_append, eventsOf_append, eventsOf_append, eventsOf_hlineActs, eventsOf_vlineActs,
    eventsOf_hlineActs, eventsOf_vlineActs]

/-- Settles O38: RECT drives its four edges. -/
theorem rectDraws : Obligations.RectDraws := by
  rintro s d x y w h color _ hd rfl hb
  exact draws_of_acts hd rfl (quiet_rectActs ..) (eventsOf_rectActs ..) hb

/-- Settles O39: FRECT drives its window and the fill of its area. -/
theorem frectDraws : Obligations.FrectDraws := fun _ _ _ _ _ _ _ hd hb =>
  draws_of_acts hd rfl (quiet_frectActs ..) (eventsOf_frectActs ..) hb

end Sys2Proof
end

section
/-! The geometry of LINE (44_rasterizer.md R210 to R215): what the walk of its registers calls, by induction over the
iterations left, and what that says of the calls from one end point to the other. -/

namespace Sys2Proof

open Machine

/-! The calls of a walk. -/

/-- The calls a walk of `n` iterations makes from the registers `r`. -/
def walkCalls (n : Nat) (r : LineRegs) : List LineCall := (lineWalk n r).filterMap fun t => t.2

theorem walkCalls_zero (r : LineRegs) : walkCalls 0 r = if 0 < r.runLen then [flushCall r] else [] := by
  rw [walkCalls, lineWalk]
  split <;> rfl

theorem walkCalls_flush {r : LineRegs} (h : (lineAdvance r).err < 0) (n : Nat) :
    walkCalls (n + 1) r = flushCall (lineAdvance r) :: walkCalls n (lineNewRun (lineAdvance r)) := by
  rw [walkCalls, lineWalk, if_pos h]
  rfl

theorem walkCalls_continue {r : LineRegs} (h : ¬(lineAdvance r).err < 0) (n : Nat) :
    walkCalls (n + 1) r = walkCalls n (lineContinue (lineAdvance r)) := by
  rw [walkCalls, lineWalk, if_neg h]
  rfl

/-- A screen point from its driving and its cross coordinate (R211). -/
def place (steep : Bool) (x y : Int) : Int × Int := if steep then (y, x) else (x, y)

/-- The pixels of the run in progress. -/
def runPixels (r : LineRegs) : List (Int × Int) :=
  (List.range r.runLen).map fun (k : Nat) => place r.steep (r.runStart + k) r.y

theorem callPixels_flushCall (r : LineRegs) : callPixels (flushCall r) = runPixels r := by
  unfold flushCall runPixels place
  by_cases hone : r.runLen = 1
  · cases r.steep <;> simp [hone, callPixels]
  · cases r.steep <;> simp [hone, callPixels]

theorem callLength_flushCall (r : LineRegs) : callLength (flushCall r) = r.runLen := by
  unfold flushCall
  by_cases hone : r.runLen = 1
  · cases r.steep <;> simp [hone, callLength]
  · cases r.steep <;> simp [hone, callLength]

/-- A run call has at least two pixels and lies along the driving axis (R213 d). -/
def RunsAlong (steep : Bool) : LineCall → Prop
  | .pixel _ _ => True
  | .hline _ _ n => 2 ≤ n ∧ steep = false
  | .vline _ _ n => 2 ≤ n ∧ steep = true

theorem runsAlong_flushCall {r : LineRegs} (h : 0 < r.runLen) : RunsAlong r.steep (flushCall r) := by
  unfold flushCall
  by_cases hone : r.runLen = 1
  · cases r.steep <;> simp [hone, RunsAlong]
  · have htwo : (2 : Int) ≤ r.runLen := by omega
    cases r.steep <;> simp [hone, RunsAlong, htwo]

theorem walkCalls_runsAlong (n : Nat) (r : LineRegs) : ∀ c ∈ walkCalls n r, RunsAlong r.steep c := by
  induction n generalizing r with
  | zero =>
    rw [walkCalls_zero]
    split
    · rename_i h
      exact List.forall_mem_singleton.2 (runsAlong_flushCall h)
    · exact fun _ h => nomatch h
  | succ n ih =>
    by_cases h : (lineAdvance r).err < 0
    · rw [walkCalls_flush h]
      exact List.forall_mem_cons.2 ⟨runsAlong_flushCall (Nat.succ_pos _), ih (lineNewRun (lineAdvance r))⟩
    · rw [walkCalls_continue h]
      exact ih (lineContinue (lineAdvance r))

/-- Every iteration adds one pixel to a run. -/
theorem walkCalls_sum (n : Nat) (r : LineRegs) : ((walkCalls n r).map callLength).sum = r.runLen + n := by
  induction n generalizing r with
  | zero =>
    rw [walkCalls_zero]
    split
    · simp [callLength_flushCall]
    · simp
      omega
  | succ n ih =>
    by_cases h : (lineAdvance r).err < 0
    · rw [walkCalls_flush h, List.map_cons, List.sum_cons, ih, callLength_flushCall]
      simp [lineAdvance, lineNewRun]
      omega
    · rw [walkCalls_continue h, ih]
      simp [lineAdvance, lineContinue]
      omega

/-! The error term and the steps of the cross coordinate. -/

/-- The registers between two iterations: the error term is below the driving distance (0 for a point), and the run in
progress ends before the current point. -/
structure OnLine (r : LineRegs) : Prop where
  err_nonneg : 0 ≤ r.err
  err_lt : r.err < r.dx ∨ r.dx = 0
  dy_nonneg : 0 ≤ r.dy
  dy_le : r.dy ≤ r.dx
  run : r.runStart + r.runLen = r.x

theorem OnLine.newRun {r : LineRegs} (h : OnLine r) (hflush : (lineAdvance r).err < 0) :
    OnLine (lineNewRun (lineAdvance r)) := by
  obtain ⟨h0, hlt, hdy, hle, -⟩ := h
  simp only [lineAdvance] at hflush
  constructor <;> simp only [lineAdvance, lineNewRun] <;> omega

theorem OnLine.sameRun {r : LineRegs} (h : OnLine r) (hgo : ¬(lineAdvance r).err < 0) :
    OnLine (lineContinue (lineAdvance r)) := by
  obtain ⟨h0, hlt, hdy, hle, hrun⟩ := h
  simp only [lineAdvance] at hgo
  constructor <;> simp only [lineAdvance, lineContinue] <;> omega

/-- How often the cross coordinate steps before the point `k` iterations on: the least `c` for which
`err - k * dy + c * dx` is not negative (R213 c). -/
def crossSteps (r : LineRegs) (k : Int) : Int := (k * r.dy + r.dx - 1 - r.err) / r.dx

theorem crossSteps_zero {r : LineRegs} (h : OnLine r) : crossSteps r 0 = 0 := by
  obtain ⟨h0, hlt, -, -, -⟩ := h
  rcases hlt with hlt | hzero
  · exact Int.ediv_eq_zero_of_lt (by omega) (by omega)
  · rw [crossSteps, hzero, Int.ediv_zero]

/-- A flush steps the cross coordinate; there is none on a point, whose driving distance is 0. -/
theorem crossSteps_newRun {r : LineRegs} (h : OnLine r) (hflush : (lineAdvance r).err < 0) (k : Int) :
    crossSteps r (k + 1) = crossSteps (lineNewRun (lineAdvance r)) k + 1 := by
  obtain ⟨h0, -, -, hle, -⟩ := h
  simp only [lineAdvance] at hflush
  have hdx : r.dx ≠ 0 := by omega
  have hnum : (k + 1) * r.dy + r.dx - 1 - r.err =
      k * r.dy + r.dx - 1 - (r.err - r.dy + r.dx) + 1 * r.dx := by
    rw [Int.add_mul]
    omega
  rw [crossSteps, hnum, Int.add_mul_ediv_right _ _ hdx]
  rfl

theorem crossSteps_continue (r : LineRegs) (k : Int) :
    crossSteps r (k + 1) = crossSteps (lineContinue (lineAdvance r)) k := by
  have hnum : (k + 1) * r.dy + r.dx - 1 - r.err = k * r.dy + r.dx - 1 - (r.err - r.dy) := by
    rw [Int.add_mul]
    omega
  rw [crossSteps, hnum]
  rfl

/-- One call for each value of the cross coordinate: the last is flushed in the last iteration or after it. -/
theorem walkCalls_length {r : LineRegs} (h : OnLine r) (n : Nat) :
    ((walkCalls (n + 1) r).length : Int) = crossSteps r n + 1 := by
  induction n generalizing r with
  | zero =>
    have hlast : (walkCalls 1 r).length = 1 := by
      by_cases hflush : (lineAdvance r).err < 0
      · rw [walkCalls_flush hflush, walkCalls_zero]
        rfl
      · rw [walkCalls_continue hflush, walkCalls_zero]
        exact congrArg List.length (if_pos (Nat.succ_pos _))
    rw [hlast, Int.natCast_zero, crossSteps_zero h]
    rfl
  | succ n ih =>
    rw [Int.natCast_succ]
    by_cases hflush : (lineAdvance r).err < 0
    · rw [walkCalls_flush hflush, List.length_cons, Int.natCast_succ, ih (h.newRun hflush), crossSteps_newRun h hflush]
    · rw [walkCalls_continue hflush, ih (h.sameRun hflush), crossSteps_continue]

/-! The pixels of a walk. -/

/-- The pixel `k` iterations on. -/
def linePoint (r : LineRegs) (k : Int) : Int × Int := place r.steep (r.x + k) (r.y + r.ystep * crossSteps r k)

theorem linePoint_zero {r : LineRegs} (h : OnLine r) : linePoint r 0 = place r.steep r.x r.y := by
  rw [linePoint, crossSteps_zero h, Int.mul_zero, Int.add_zero, Int.add_zero]

theorem linePoint_newRun {r : LineRegs} (h : OnLine r) (hflush : (lineAdvance r).err < 0) (k : Int) :
    linePoint r (k + 1) = linePoint (lineNewRun (lineAdvance r)) k := by
  rw [linePoint, linePoint, crossSteps_newRun h hflush]
  congr 1
  · simp only [lineAdvance, lineNewRun]
    omega
  · rw [Int.mul_add, Int.mul_one]
    simp only [lineAdvance, lineNewRun]
    omega

theorem linePoint_continue (r : LineRegs) (k : Int) :
    linePoint r (k + 1) = linePoint (lineContinue (lineAdvance r)) k := by
  rw [linePoint, linePoint, crossSteps_continue]
  congr 1
  simp only [lineAdvance, lineContinue]
  omega

/-- An iteration adds its point to the run in progress. -/
theorem runPixels_advance {r : LineRegs} (h : OnLine r) :
    runPixels (lineAdvance r) = runPixels r ++ [linePoint r 0] := by
  rw [linePoint_zero h, ← h.run]
  simp [runPixels, lineAdvance, List.range_succ]

theorem range_map_succ {α : Type} (n : Nat) (f : Int → α) :
    (List.range (n + 1)).map (fun (k : Nat) => f k) = f 0 :: (List.range n).map fun (k : Nat) => f (k + 1) := by
  rw [List.range_succ_eq_map, List.map_cons, List.map_map]
  rfl

/-- The pixels of the calls are those of the run in progress and of the points to come. -/
theorem walkCalls_pixels {r : LineRegs} (h : OnLine r) (n : Nat) :
    (walkCalls n r).flatMap callPixels = runPixels r ++ (List.range n).map fun (k : Nat) => linePoint r k := by
  induction n generalizing r with
  | zero =>
    rw [walkCalls_zero]
    split
    · simp [callPixels_flushCall]
    · rename_i hrun
      simp [runPixels, show r.runLen = 0 by omega]
  | succ n ih =>
    rw [range_map_succ, ← List.singleton_append, ← List.append_assoc, ← runPixels_advance h]
    by_cases hflush : (lineAdvance r).err < 0
    · simp only [linePoint_newRun h hflush]
      rw [walkCalls_flush hflush, List.flatMap_cons, callPixels_flushCall, ih (h.newRun hflush)]
      rfl
    · simp only [linePoint_continue]
      rw [walkCalls_continue hflush, ih (h.sameRun hflush)]
      rfl

/-- Without a step of the cross coordinate the walk is one run. -/
theorem walkCalls_of_flat (n : Nat) {r : LineRegs} (hdy : r.dy = 0) (herr : 0 ≤ r.err) (hpos : 0 < r.runLen + n) :
    walkCalls n r = [flushCall { r with runLen := r.runLen + n }] := by
  induction n generalizing r with
  | zero => exact (walkCalls_zero r).trans (if_pos hpos)
  | succ n ih =>
    have hgo : ¬(lineAdvance r).err < 0 := by
      simp only [lineAdvance]
      omega
    rw [walkCalls_continue hgo, ih (r := lineContinue (lineAdvance r)) hdy (Int.not_lt.1 hgo) (by
      simp only [lineAdvance, lineContinue]
      omega), show r.runLen + (n + 1) = r.runLen + 1 + n by omega]
    rfl

/-! From one end point to the other. -/

/-- The registers at the start of a walk from driving coordinate `a` to `c`, cross coordinate `b` to `d`. -/
def lineStart (steep : Bool) (a b c d : Int) : LineRegs where
  steep := steep
  x0 := a
  y0 := b
  x1 := c
  y1 := d
  dx := c - a
  dy := (d - b).natAbs
  err := (c - a) / 2
  ystep := if b < d then 1 else -1
  x := a
  y := b
  runStart := a
  runLen := 0

/-- The calls of the walk from the low end of the driving axis to the high one. -/
def startCalls (steep : Bool) (a b c d : Int) : List LineCall := walkCalls ((c - a).toNat + 1) (lineStart steep a b c d)

/-- The calls between two end points given by driving and cross coordinate, in either order. -/
def drivenCalls (steep : Bool) (a b c d : Int) : List LineCall :=
  if c < a then startCalls steep c d a b else startCalls steep a b c d

/-- Steps 1 to 3 of R210: the driving axis is that of the longer distance, and its low end comes first. -/
theorem lineSetup_eq (x0 y0 x1 y1 : Int) :
    lineSetup x0 y0 x1 y1 =
      if (x1 - x0).natAbs < (y1 - y0).natAbs then
        if y1 < y0 then lineStart true y1 x1 y0 x0 else lineStart true y0 x0 y1 x1
      else if x1 < x0 then lineStart false x1 y1 x0 y0 else lineStart false x0 y0 x1 y1 := by
  unfold lineSetup lineStart
  by_cases hs : (x1 - x0).natAbs < (y1 - y0).natAbs
  · by_cases hy : y1 < y0 <;> simp [hs, hy]
  · by_cases hx : x1 < x0 <;> simp [hs, hx]

theorem walkCalls_lineStart (steep : Bool) {a b c d : Int} (h : a ≤ c) :
    walkCalls (c - a + 1).toNat (lineStart steep a b c d) = startCalls steep a b c d := by
  rw [startCalls, show (c - a + 1).toNat = (c - a).toNat + 1 by omega]

theorem lineCalls_eq (x0 y0 x1 y1 : Int) :
    lineCalls x0 y0 x1 y1 =
      if (x1 - x0).natAbs < (y1 - y0).natAbs then drivenCalls true y0 x0 y1 x1 else drivenCalls false x0 y0 x1 y1 := by
  change walkCalls ((lineSetup x0 y0 x1 y1).x1 - (lineSetup x0 y0 x1 y1).x0 + 1).toNat (lineSetup x0 y0 x1 y1) = _
  rw [lineSetup_eq]
  unfold drivenCalls
  split
  · split
    · exact walkCalls_lineStart (a := y1) (c := y0) true (by omega)
    · exact walkCalls_lineStart (a := y0) (c := y1) true (by omega)
  · split
    · exact walkCalls_lineStart (a := x1) (c := x0) false (by omega)
    · exact walkCalls_lineStart (a := x0) (c := x1) false (by omega)

theorem onLine_lineStart {steep : Bool} {a b c d : Int} (hac : a ≤ c) (hbd : (d - b).natAbs ≤ (c - a).natAbs) :
    OnLine (lineStart steep a b c d) := by
  constructor <;> simp only [lineStart] <;> omega

/-- The cross coordinate steps from one end to the other. -/
theorem crossSteps_lineStart {steep : Bool} {a b c d : Int} (hac : a ≤ c) (hbd : (d - b).natAbs ≤ (c - a).natAbs) :
    crossSteps (lineStart steep a b c d) (c - a) = (d - b).natAbs := by
  by_cases hpoint : c - a = 0
  · have hcross : (d - b).natAbs = 0 := by omega
    simp [crossSteps, lineStart, hpoint, hcross]
  · have hnum : (c - a) * (d - b).natAbs + (c - a) - 1 - (c - a) / 2 =
        (c - a) - 1 - (c - a) / 2 + (d - b).natAbs * (c - a) := by
      rw [Int.mul_comm]
      omega
    have hsmall : ((c - a) - 1 - (c - a) / 2) / (c - a) = 0 := Int.ediv_eq_zero_of_lt (by omega) (by omega)
    change ((c - a) * ((d - b).natAbs : Int) + (c - a) - 1 - (c - a) / 2) / (c - a) = _
    rw [hnum, Int.add_mul_ediv_right _ _ hpoint, hsmall, Int.zero_add]

section
variable {steep : Bool} {a b c d : Int}

theorem drivenCalls_length (hbd : (d - b).natAbs ≤ (c - a).natAbs) :
    (drivenCalls steep a b c d).length = (d - b).natAbs + 1 := by
  have ordered : ∀ {a b c d : Int}, a ≤ c → (d - b).natAbs ≤ (c - a).natAbs →
      (startCalls steep a b c d).length = (d - b).natAbs + 1 := by
    intro a b c d hac hbd
    have hlen := walkCalls_length (onLine_lineStart (steep := steep) hac hbd) (c - a).toNat
    rw [Int.toNat_of_nonneg (by omega), crossSteps_lineStart hac hbd] at hlen
    exact_mod_cast hlen
  unfold drivenCalls
  split
  · rw [ordered (by omega) (by omega)]
    omega
  · exact ordered (by omega) hbd

theorem drivenCalls_sum : ((drivenCalls steep a b c d).map callLength).sum = (c - a).natAbs + 1 := by
  unfold drivenCalls
  split
  · rw [startCalls, walkCalls_sum]
    simp only [lineStart]
    omega
  · rw [startCalls, walkCalls_sum]
    simp only [lineStart]
    omega

theorem drivenCalls_runsAlong : ∀ call ∈ drivenCalls steep a b c d, RunsAlong steep call := by
  unfold drivenCalls
  split
  · exact walkCalls_runsAlong _ (lineStart steep c d a b)
  · exact walkCalls_runsAlong _ (lineStart steep a b c d)

theorem startCalls_pixels (hac : a ≤ c) (hbd : (d - b).natAbs ≤ (c - a).natAbs) :
    (startCalls steep a b c d).flatMap callPixels = (bresenham a b c d).map fun q => place steep q.1 q.2 := by
  rw [startCalls, walkCalls_pixels (onLine_lineStart hac hbd), bresenham, List.map_map]
  rfl

theorem drivenCalls_pixels (hbd : (d - b).natAbs ≤ (c - a).natAbs) :
    (drivenCalls steep a b c d).flatMap callPixels =
      (if c < a then bresenham c d a b else bresenham a b c d).map fun q => place steep q.1 q.2 := by
  unfold drivenCalls
  split
  · exact startCalls_pixels (by omega) (by omega)
  · exact startCalls_pixels (by omega) hbd

/-- Only the order of the driving coordinates matters; where they are equal, the end points are. -/
theorem drivenCalls_exchange (h : a = c → b = d) : drivenCalls steep c d a b = drivenCalls steep a b c d := by
  unfold drivenCalls
  rcases Int.lt_trichotomy a c with hlt | heq | hgt
  · rw [if_pos hlt, if_neg (by omega)]
  · obtain rfl := h heq
    rw [heq]
  · rw [if_neg (by omega), if_pos hgt]

/-- A line along the driving axis is one run (R215). -/
theorem drivenCalls_of_flat :
    drivenCalls steep a b c b =
      [flushCall { lineStart steep (min a c) b (max a c) b with runLen := (c - a).natAbs + 1 }] := by
  have ordered : ∀ {a c : Int}, a ≤ c →
      startCalls steep a b c b = [flushCall { lineStart steep a b c b with runLen := (c - a).toNat + 1 }] := by
    intro a c hac
    rw [startCalls, walkCalls_of_flat _ (by simp [lineStart]) (by simp only [lineStart]; omega) (by omega)]
    simp [lineStart]
  unfold drivenCalls
  split
  · rw [ordered (by omega), show (a - c).toNat = (c - a).natAbs by omega, show min a c = c by omega,
      show max a c = a by omega]
  · rw [ordered (by omega), show (c - a).toNat = (c - a).natAbs by omega, show min a c = a by omega,
      show max a c = c by omega]

end

/-- Settles O34: the pixels of the walk, in screen coordinates. -/
theorem lineBresenham : Obligations.LineBresenham := by
  intro x0 y0 x1 y1
  rw [lineCalls_eq]
  split
  · exact drivenCalls_pixels (by omega)
  · exact (drivenCalls_pixels (by omega)).trans (List.map_id _)

/-- Settles O35: the numbers of the walk along its driving axis. -/
theorem lineCallCount : Obligations.LineCallCount := by
  intro x0 y0 x1 y1
  rw [lineCalls_eq]
  split
  · rename_i hsteep
    refine ⟨by rw [drivenCalls_length (by omega)]; omega, by rw [drivenCalls_sum]; omega, fun call hcall => ?_⟩
    have hruns := drivenCalls_runsAlong call hcall
    cases call with
    | pixel => trivial
    | hline => exact nomatch hruns.2
    | vline => exact ⟨hruns.1, hsteep⟩
  · rename_i hsteep
    refine ⟨by rw [drivenCalls_length (by omega)]; omega, by rw [drivenCalls_sum]; omega, fun call hcall => ?_⟩
    have hruns := drivenCalls_runsAlong call hcall
    cases call with
    | pixel => trivial
    | hline => exact ⟨hruns.1, Nat.not_lt.1 hsteep⟩
    | vline => exact nomatch hruns.2

/-- Settles O36: the driving axis is the same, and the walk starts at its low end either way. -/
theorem lineExchange : Obligations.LineExchange := by
  intro x0 y0 x1 y1
  have hx : (x0 - x1).natAbs = (x1 - x0).natAbs := by omega
  have hy : (y0 - y1).natAbs = (y1 - y0).natAbs := by omega
  rw [lineCalls_eq, lineCalls_eq x0, hx, hy]
  split
  · exact drivenCalls_exchange (by omega)
  · exact drivenCalls_exchange (by omega)

/-- Settles O37: a line along an axis is driven along it, in one run. -/
theorem lineAxisAligned : Obligations.LineAxisAligned := by
  refine ⟨fun x y => ?_, fun x0 x1 y hne => ?_, fun x y0 y1 hne => ?_⟩
  · rw [lineCalls_eq, if_neg (by omega), drivenCalls_of_flat]
    simp [flushCall, lineStart]
  · have hlong : (x1 - x0).natAbs ≠ 0 := by omega
    rw [lineCalls_eq, if_neg (by omega), drivenCalls_of_flat]
    simp [flushCall, lineStart, hlong]
  · have hlong : (y1 - y0).natAbs ≠ 0 := by omega
    rw [lineCalls_eq, if_pos (by omega), drivenCalls_of_flat]
    simp [flushCall, lineStart, hlong]

end Sys2Proof
end
